-- ==== Sys2Proof/Word.lean ====
section
/-! DEFINITION. Bytes and 32-bit words: every register is 32 bits wide (R7, R33), DMEM is an array of bytes (R50). -/

namespace Sys2Proof

/-- A byte of data memory (R50). -/
abbrev Byte := BitVec 8

/-- A 32-bit register value, a command word, a GOST half block (R33, R120, R250). -/
abbrev Word := BitVec 32

/-- A byte offset into the block's bus window, which is `0x20000 = 2^17` bytes wide (R80). -/
abbrev WindowOffset := BitVec 17

end Sys2Proof
end

