-- ==== Sys2Proof/Config.lean ====
section
/-! DEFINITION. What an implementation fixes (the parameters of R6) and the free values of the model.

The parameters `DMEM_BYTES`, `MAXBYTES` and `SBOX` stand in a record that the state carries and no step changes (log
entry 6), so that a statement over all states quantifies over them. `RNG`, `LATENCY` and the unspecified bytes are opaque
constants without a body: nothing in Lean can evaluate them or prove a value of them (log entries 1, 2, 3, 15).
`BLOCK_BASE` does not occur: every address is an offset into the window (log entry 8). -/

namespace Sys2Proof

/-- The implementation parameters of R6. Their legal values are `Config.wf` in WellFormed.lean. -/
structure Config where
  /-- `DMEM_BYTES`, read by the host as CFG0 (R6, R35). -/
  dmemBytes : Nat
  /-- `MAXBYTES`, read by the host as CFG1 (R6, R36). -/
  maxBytes : Nat
  /-- `SBOX[0..7]`, 16 entries of 4 bits each (R6, R252); every such table is legal. -/
  sbox : Vector (Vector (BitVec 4) 16) 8
deriving DecidableEq, Repr

/-- The default substitution table: GOST R 34.12-2015, RFC 8891 §4.1 (R252). -/
def Config.defaultSbox : Vector (Vector (BitVec 4) 16) 8 :=
  #v[#v[0xC, 0x4, 0x6, 0x2, 0xA, 0x5, 0xB, 0x9, 0xE, 0x8, 0xD, 0x7, 0x0, 0x3, 0xF, 0x1],
     #v[0x6, 0x8, 0x2, 0x3, 0x9, 0xA, 0x5, 0xC, 0x1, 0xE, 0x4, 0x7, 0xB, 0xD, 0x0, 0xF],
     #v[0xB, 0x3, 0x5, 0x8, 0x2, 0xF, 0xA, 0xD, 0xE, 0x1, 0x7, 0x4, 0xC, 0x9, 0x6, 0x0],
     #v[0xC, 0x8, 0x2, 0x1, 0xD, 0x4, 0xF, 0x6, 0x7, 0x0, 0xA, 0x5, 0x3, 0xE, 0x9, 0xB],
     #v[0x7, 0xF, 0x5, 0xA, 0x8, 0x1, 0x6, 0xD, 0x0, 0x9, 0x3, 0xE, 0xB, 0x4, 0x2, 0xC],
     #v[0x5, 0xD, 0xF, 0x6, 0x9, 0x2, 0xC, 0xA, 0xB, 0x7, 0x8, 0x1, 0x4, 0x3, 0xE, 0x0],
     #v[0x8, 0xE, 0x2, 0x5, 0x6, 0x9, 0x1, 0xC, 0xF, 0x4, 0xB, 0x0, 0xD, 0xA, 0x3, 0x7],
     #v[0x1, 0x7, 0xE, 0xD, 0x0, 0x5, 0x8, 0x3, 0x4, 0xF, 0xA, 0x6, 0x9, 0xC, 0xB, 0x2]]

/-- The default parameters of R6. -/
def Config.default : Config :=
  { dmemBytes := 16384, maxBytes := 512, sbox := Config.defaultSbox }

/-- FREE VALUE (R89, R501, R511; log entry 2). The value an unspecified byte reads as: `freeByte event slot offset` is the
byte at DMEM offset `offset` as read by read number `slot` of draw number `event`. No law holds of it. -/
opaque Config.freeByte (event slot offset : Nat) : Byte

/-- FREE VALUE (R332; log entry 15). The `RNG` parameter: `rngByte event i` is byte `i` of the string drawn by draw number
`event`. No law holds of it. -/
opaque Config.rngByte (event i : Nat) : Byte

/-- FREE VALUE (R520; log entry 3). The `LATENCY` parameter: how many further host inputs are handled before the completion
of the command whose START is draw number `event`. It is some natural number, hence finite, and no other law holds of it. -/
opaque Config.latency (event : Nat) : Nat

end Sys2Proof
end

