-- ==== Sys2Proof/Syntax.lean ====
section
/-! DEFINITION. The command set MXE-1: one constructor per row of spec/opcode_table.json (R126), with the flag bits the row
leaves free (R127). The descriptors are no part of the command word: they come from the ARG registers (R124, R125). -/

namespace Sys2Proof

/-- A command (R126). `env` is ENV, the file-form envelope (R268), and `ivgen` is IVGEN, the generated IV (R261). A flag that
R127 does not allow has no place in the type, so every term is a legal command; the checks R128 makes on a raw command word
are `CommandWord.wf`. -/
inductive Instr where
  /-- no operation (R330) -/
  | nop
  /-- multiplication (R204) -/
  | mul
  /-- modular reduction (R205) -/
  | mod
  /-- multiply and reduce (R206) -/
  | mulmod
  /-- modular exponentiation (R207) -/
  | modpow
  /-- RSA encryption of one integer block (R209) -/
  | rsaEnc
  /-- RSA decryption of one integer block (R210) -/
  | rsaDec
  /-- GOST block encryption (R259) -/
  | gostEcbEnc
  /-- GOST block decryption (R260) -/
  | gostEcbDec
  /-- GOST cipher-feedback encryption (R264) -/
  | gostCfbEnc (env ivgen : Bool)
  /-- GOST cipher-feedback decryption (R265) -/
  | gostCfbDec (env : Bool)
  /-- GOST output-feedback encryption (R266) -/
  | gostOfbEnc (env ivgen : Bool)
  /-- GOST output-feedback decryption (R267) -/
  | gostOfbDec (env : Bool)
  /-- block-permutation encryption (R304) -/
  | permEnc
  /-- block-permutation decryption (R306) -/
  | permDec
  /-- random fill (R331) -/
  | rngFill
deriving DecidableEq, Repr

end Sys2Proof
end

