-- ==== Sys2Proof/WellFormed.lean ====
section
/-! DEFINITION. Which command words are legal (R128) and which parameters are (R6). Each check stands alone, so that a
test can show an ill-formed term it refuses. -/

namespace Sys2Proof

/-- The five fields of a 32-bit command word (R120). -/
structure CommandWord where
  /-- bits [7:0] -/
  opcode : BitVec 8
  /-- bit [8] -/
  env : Bool
  /-- bit [9] -/
  ivgen : Bool
  /-- bits [15:10] -/
  frsv : BitVec 6
  /-- bits [31:16] -/
  rsv : BitVec 16
deriving DecidableEq, Repr

/-- R128, first condition: OPCODE is in the table of R126. -/
def CommandWord.opcodeAssigned (c : CommandWord) : Bool :=
  c.opcode ∈ ([0x00, 0x01, 0x02, 0x03, 0x04, 0x05, 0x06, 0x10, 0x11, 0x12, 0x13, 0x14, 0x15, 0x20, 0x21, 0x30]
    : List (BitVec 8))

/-- R127: ENV may be set only on the four stream commands. -/
def CommandWord.envAllowed (c : CommandWord) : Bool :=
  !c.env || c.opcode ∈ ([0x12, 0x13, 0x14, 0x15] : List (BitVec 8))

/-- R127: IVGEN may be set only on the two stream encrypt commands. -/
def CommandWord.ivgenAllowed (c : CommandWord) : Bool :=
  !c.ivgen || c.opcode ∈ ([0x12, 0x14] : List (BitVec 8))

/-- R122: the reserved flag bits are 0. -/
def CommandWord.frsvZero (c : CommandWord) : Bool := c.frsv == 0

/-- R123: the reserved upper half is 0. -/
def CommandWord.rsvZero (c : CommandWord) : Bool := c.rsv == 0

/-- A legal command word: none of the conditions of R128 holds. -/
def CommandWord.wf (c : CommandWord) : Bool :=
  c.opcodeAssigned && c.envAllowed && c.ivgenAllowed && c.frsvZero && c.rsvZero

/-- Why a command word is illegal (R128), first reason that applies: the name the decoder rejects it by. -/
inductive IllegalWord where
  /-- RSV is not 0 (R123) -/
  | reservedHalfSet
  /-- FRSV is not 0 (R122) -/
  | reservedFlagSet
  /-- OPCODE is not in the table of R126 (R121) -/
  | opcodeUnassigned
  /-- a flag is set that R127 does not allow (R122) -/
  | flagNotAllowed
deriving DecidableEq, Repr

/-- R6: `DMEM_BYTES` is a multiple of 4. -/
def Config.dmemAligned (c : Config) : Bool := c.dmemBytes % 4 == 0

/-- R6: `DMEM_BYTES` is from 1024 to 65536. -/
def Config.dmemInRange (c : Config) : Bool := decide (1024 ≤ c.dmemBytes) && decide (c.dmemBytes ≤ 65536)

/-- R6: `MAXBYTES` is from 1 to 4096. -/
def Config.maxInRange (c : Config) : Bool := decide (1 ≤ c.maxBytes) && decide (c.maxBytes ≤ 4096)

/-- The legal parameters of R6. -/
def Config.wf (c : Config) : Bool := c.dmemAligned && c.dmemInRange && c.maxInRange

end Sys2Proof
end

