-- ==== Sys2Proof/Decode.lean ====
section
/-! DEFINITION. The decoder and, after it, the encoder of command words (R120 to R128).

The table is R127's: a legal command word matches one row's mask and value. The word is read from the 32-bit register CMD
(R47), so it has no byte order (R86) and no length to decode (R129). -/

namespace Sys2Proof

/-- The fields of a command word (R120). -/
def CommandWord.ofWord (w : Word) : CommandWord where
  opcode := w.extractLsb' 0 8
  env := w.getLsbD 8
  ivgen := w.getLsbD 9
  frsv := w.extractLsb' 10 6
  rsv := w.extractLsb' 16 16

/-- One row of the opcode map (R126) with its mask (R127): a word is the row's when its masked bits are the opcode; the row
then builds the command from ENV and IVGEN. -/
structure OpcodeRow where
  mask : Word
  opcode : Word
  build : Bool → Bool → Instr

/-- The row stands for the word `w` (R127). -/
def OpcodeRow.hits (r : OpcodeRow) (w : Word) : Bool := w &&& r.mask == r.opcode

/-- The opcode map (R126) with the masks of R127. -/
def opcodeTable : List OpcodeRow :=
  [⟨0xFFFFFFFF, 0x00, fun _ _ => .nop⟩,
   ⟨0xFFFFFFFF, 0x01, fun _ _ => .mul⟩,
   ⟨0xFFFFFFFF, 0x02, fun _ _ => .mod⟩,
   ⟨0xFFFFFFFF, 0x03, fun _ _ => .mulmod⟩,
   ⟨0xFFFFFFFF, 0x04, fun _ _ => .modpow⟩,
   ⟨0xFFFFFFFF, 0x05, fun _ _ => .rsaEnc⟩,
   ⟨0xFFFFFFFF, 0x06, fun _ _ => .rsaDec⟩,
   ⟨0xFFFFFFFF, 0x10, fun _ _ => .gostEcbEnc⟩,
   ⟨0xFFFFFFFF, 0x11, fun _ _ => .gostEcbDec⟩,
   ⟨0xFFFFFCFF, 0x12, fun env ivgen => .gostCfbEnc env ivgen⟩,
   ⟨0xFFFFFEFF, 0x13, fun env _ => .gostCfbDec env⟩,
   ⟨0xFFFFFCFF, 0x14, fun env ivgen => .gostOfbEnc env ivgen⟩,
   ⟨0xFFFFFEFF, 0x15, fun env _ => .gostOfbDec env⟩,
   ⟨0xFFFFFFFF, 0x20, fun _ _ => .permEnc⟩,
   ⟨0xFFFFFFFF, 0x21, fun _ _ => .permDec⟩,
   ⟨0xFFFFFFFF, 0x30, fun _ _ => .rngFill⟩]

/-- The name an illegal word is rejected by (R128). -/
def whyIllegal (c : CommandWord) : IllegalWord :=
  if !c.rsvZero then .reservedHalfSet
  else if !c.frsvZero then .reservedFlagSet
  else if !c.opcodeAssigned then .opcodeUnassigned
  else .flagNotAllowed

/-- The command a word stands for, or why it is illegal (R126, R127, R128). Total on all words. -/
def decode (w : Word) : Except IllegalWord Instr :=
  match opcodeTable.find? (fun r => r.hits w) with
  | some r => .ok (r.build (CommandWord.ofWord w).env (CommandWord.ofWord w).ivgen)
  | none => .error (whyIllegal (CommandWord.ofWord w))

/-- The host's question: the command read from a table word of `nbits` bits (every bit above them 0). A command is one
32-bit word held in a register, so there are no bytes to lay out (R86, R129). -/
def decodeTableWord (nbits w : Nat) : Option Instr :=
  (decode (BitVec.ofNat 32 (w % 2 ^ nbits))).toOption

/-- A flag at its bit of the command word (R120, R122). -/
def flagAt (bit : Nat) (flag : Bool) : Word := if flag then 1 <<< bit else 0

/-- The command word of a command: its opcode (R126), ENV at bit 8 and IVGEN at bit 9 (R122), all reserved bits 0. -/
def encode : Instr → Word
  | .nop => 0x00000000
  | .mul => 0x00000001
  | .mod => 0x00000002
  | .mulmod => 0x00000003
  | .modpow => 0x00000004
  | .rsaEnc => 0x00000005
  | .rsaDec => 0x00000006
  | .gostEcbEnc => 0x00000010
  | .gostEcbDec => 0x00000011
  | .gostCfbEnc env ivgen => 0x00000012 ||| flagAt 8 env ||| flagAt 9 ivgen
  | .gostCfbDec env => 0x00000013 ||| flagAt 8 env
  | .gostOfbEnc env ivgen => 0x00000014 ||| flagAt 8 env ||| flagAt 9 ivgen
  | .gostOfbDec env => 0x00000015 ||| flagAt 8 env
  | .permEnc => 0x00000020
  | .permDec => 0x00000021
  | .rngFill => 0x00000030

end Sys2Proof
end

