-- ==== Sys2Proof/Machine/State.lean ====
section
/-! DEFINITION. The state of the block, its types and its reset.

The record follows R56 and adds the command in progress of R51 (`lcmd`, `larg`, `lmem`) and four fields of the model's own
(`wait`, `event`, `inputs`, `responses`; log entries 1, 3, 4). -/

namespace Sys2Proof.Machine

/-- Data memory (R50, R56): the SPECIFIED bytes, offsets strictly rising. An unlisted offset is the spec's `none`: it holds
no value and reads as any value (R89; log entry 2). -/
abbrev Memory := List Host.Cell

/-- The canonical form: offsets strictly rising, so that equal memories are equal lists. An unlisted offset reads as no
fixed value, so no entry can equal it. -/
abbrev Memory.wf (m : Memory) : Prop := m.Pairwise (fun c d => c.1 < d.1)

/-- The width of a bus transaction: 1, 2 or 4 bytes (R81). -/
inductive Width where
  | byte
  | half
  | word
deriving DecidableEq, Repr

/-- The direction of a bus transaction (R81). A write of 1 or 2 bytes drives the low bytes of `value` (log entry 17). -/
inductive Direction where
  | read
  | write (value : Word)
deriving DecidableEq, Repr

/-- A host bus transaction (R81): window offset, width, direction. -/
structure Transaction where
  addr : WindowOffset
  width : Width
  dir : Direction
deriving DecidableEq, Repr

/-- What reaches the block from outside: a bus transaction (R81) or the hard reset input (R500). -/
inductive Input where
  | bus (t : Transaction)
  | hardReset
deriving DecidableEq, Repr

/-- The response to a bus transaction (R81): OKAY for a write, OKAY with data for a read (1- and 2-byte data in the low
bytes), or ERROR. -/
inductive Response where
  | okayWrite
  | okayRead (value : Word)
  | error
deriving DecidableEq, Repr

/-- The error names of R401. The last three are reserved: no command raises them (R403). Their codes are `ErrCode.code`. -/
inductive ErrCode where
  | illegalCommand
  | rangeError
  | outputTooSmall
  | operandTooLarge
  | divideByZero
  | formatError
  | keyLengthError
  | ivLengthError
  | invalidKeyError
  | encodingError
  | decryptionError
  | keygenError
  | encryptionError
  | ioError
deriving DecidableEq, Repr

/-- What stops the machine: nothing. A command error is a completion (R400), a bus error a response (R406), and every
command completes (R521), so the type is empty: no definition can raise a fault (log entry 16). -/
inductive Fault where
deriving DecidableEq, Repr

/-- Why a command has no meaning in this model. -/
inductive Refusal where
  /-- Raised by an arm of `exec` whose command has no meaning yet; safe. No arm of this model raises it. -/
  | notModelled (mnemonic : String)
deriving DecidableEq, Repr

/-- The state of the block. -/
structure State where
  /-- the implementation parameters, read as CFG0 and CFG1; no step changes them (R6, R35, R36, R54) -/
  cfg : Config
  /-- CTRL.IRQEN (R39) -/
  irqen : Bool
  /-- STATUS.BUSY (R40) -/
  busy : Bool
  /-- STATUS.DONE (R41) -/
  done : Bool
  /-- STATUS.ERR (R42) -/
  err : Bool
  /-- STATUS.WERR (R43) -/
  werr : Bool
  /-- ERRCODE[7:0] (R45) -/
  errcode : BitVec 8
  /-- RESLEN (R46) -/
  reslen : Word
  /-- CMD (R47) -/
  cmd : Word
  /-- ARG0..ARG7 (R48) -/
  arg : Vector Word 8
  /-- DMEM (R50) -/
  dmem : Memory
  /-- LCMD, the command word latched at START (R51) -/
  lcmd : Word
  /-- LARG[0..7], the ARG values latched at START (R51) -/
  larg : Vector Word 8
  /-- the data memory as it was at START (R51, R94) -/
  lmem : Memory
  /-- the model's own: host inputs still handled before the completion of the command in progress (R520; log entry 3) -/
  wait : Nat
  /-- the model's own: the number of the next draw of free values (log entry 1) -/
  event : Nat
  /-- the model's own: the host's inputs still to arrive, oldest first (R81, R97, R500; log entry 4) -/
  inputs : List Input
  /-- the model's own: the bus responses given so far, newest first (R81; log entry 4) -/
  responses : List Response
deriving DecidableEq, Repr

/-- The block right after a hard reset (R500, R501): every register at the value of R33's table, every DMEM byte
unspecified, no command in progress. `lcmd`, `larg` and `lmem` have no reset value in the spec (log entry 7); `wait`, `event`,
`inputs` and `responses` are the model's own (log entries 1, 3, 4); the parameters are the defaults of R6 (log entry 6). -/
def State.reset : State where
  cfg := Config.default
  irqen := false
  busy := false
  done := false
  err := false
  werr := false
  errcode := 0
  reslen := 0
  cmd := 0
  arg := Vector.replicate 8 0
  dmem := []
  lcmd := 0
  larg := Vector.replicate 8 0
  lmem := []
  wait := 0
  event := 0
  inputs := []
  responses := []

end Sys2Proof.Machine
end

