-- ==== Sys2Proof/Machine/Flags.lean ====
section
/-! DEFINITION. The status flags (R40 to R44), the interrupt level (R52, R412) and the error codes (R401). -/

namespace Sys2Proof.Machine

/-- The code of an error in ERRCODE[7:0] (R401). -/
def ErrCode.code : ErrCode → BitVec 8
  | .illegalCommand => 0x01
  | .rangeError => 0x02
  | .outputTooSmall => 0x03
  | .operandTooLarge => 0x04
  | .divideByZero => 0x05
  | .formatError => 0x10
  | .keyLengthError => 0x11
  | .ivLengthError => 0x12
  | .invalidKeyError => 0x13
  | .keygenError => 0x14
  | .encodingError => 0x15
  | .encryptionError => 0x16
  | .decryptionError => 0x17
  | .ioError => 0x18

/-- The values ERRCODE ever holds (R403). -/
def legalErrcodes : List (BitVec 8) :=
  [0x00, 0x01, 0x02, 0x03, 0x04, 0x05, 0x10, 0x11, 0x12, 0x13, 0x15, 0x17]

/-- A one-bit flag at bit `i` of a register read. -/
def bitAt (i : Nat) (flag : Bool) : Word := if flag then 1 <<< i else 0

/-- What a read of STATUS returns: `WERR << 3 | ERR << 2 | DONE << 1 | BUSY`, bits [31:4] zero (R44). -/
def statusWord (s : State) : Word := bitAt 3 s.werr ||| bitAt 2 s.err ||| bitAt 1 s.done ||| bitAt 0 s.busy

/-- What a read of CTRL returns: `IRQEN << 2`; START and SRST read 0 (R37, R38, R39). -/
def ctrlWord (s : State) : Word := bitAt 2 s.irqen

/-- A host write to STATUS: DONE, ERR and WERR are write-1-to-clear, every other bit is ignored (R40 to R44). -/
def clearStatus (v : Word) (s : State) : State :=
  { s with
    done := s.done && !v.getLsbD 1
    err := s.err && !v.getLsbD 2
    werr := s.werr && !v.getLsbD 3 }

/-- The interrupt output: the level IRQEN AND DONE (R52, R412). -/
def irq (s : State) : Bool := s.irqen && s.done

end Sys2Proof.Machine
end

