-- ==== Sys2Proof/Machine/Ops.lean ====
section
/-! DEFINITION. The shared operations: byte strings (R9), data memory (R10, R89, R93), random draws (R332), the start, the
completion and the two resets of the block (R37, R408, R500 to R502), and the next input of the host. -/

namespace Sys2Proof.Machine

/-! ### Byte strings -/

/-- `be(s)`: the big-endian value of a byte string; `be(empty) = 0` (R9, R87). -/
def be : List Byte → Nat
  | [] => 0
  | b :: bs => b.toNat * 256 ^ bs.length + be bs

/-- `be_L(v)`: the string of `L` bytes whose big-endian value is `v`, for `v < 256^L` (R9). -/
def toBE : Nat → Nat → List Byte
  | 0, _ => []
  | L + 1, v => BitVec.ofNat 8 (v / 256 ^ L) :: toBE L v

/-- `xor(s, t)` for `|s| <= |t|`: byte by byte, only the first `|s|` bytes of `t` are used (R9). -/
def xorBytes (s t : List Byte) : List Byte := List.zipWith (fun x y => x ^^^ y) s t

/-- `f` applied to each of the first `n` blocks of `N` bytes of a string, the results joined (R259, R304). -/
def mapBlocks (f : List Byte → List Byte) (N : Nat) : Nat → List Byte → List Byte
  | 0, _ => []
  | n + 1, x => f (x.take N) ++ mapBlocks f N n (x.drop N)

/-! ### Data memory -/

/-- The byte at an offset, `none` when it is unspecified (R56, `DMEM[o]` of R10). -/
def Memory.get? : Memory → Nat → Option Byte
  | [], _ => none
  | c :: m, a => if c.1 = a then some c.2 else Memory.get? m a

/-- `DMEM[a] <- b` (R10), in the canonical form. -/
def Memory.set : Memory → Nat → Byte → Memory
  | [], a, b => [(a, b)]
  | c :: m, a, b =>
    if a < c.1 then (a, b) :: c :: m
    else if a = c.1 then (a, b) :: m
    else c :: Memory.set m a b

/-- `MemWrite(o, |bs|, bs)` (R10). -/
def Memory.write : Memory → Nat → List Byte → Memory
  | m, _, [] => m
  | m, o, b :: bs => Memory.write (Memory.set m o b) (o + 1) bs

/-- The bytes of `region(o, n)` become unspecified (R502). -/
def Memory.forget (m : Memory) (o n : Nat) : Memory := m.filter (fun c => c.1 < o || o + n ≤ c.1)

/-- One byte as a read sees it: its value, or any value when it is unspecified (R89; log entries 2 and 12). -/
def Memory.byte (m : Memory) (event slot a : Nat) : Byte := (m.get? a).getD (Config.freeByte event slot a)

/-- `MemRead(o, n)` (R10): `n` bytes from offset `o`, as read number `slot` of draw number `event` sees them. -/
def Memory.read (m : Memory) (event slot o n : Nat) : List Byte :=
  (List.range n).map (fun i => m.byte event slot (o + i))

/-- `draw_rng(n)` (R10, R332): `n` bytes of draw number `event`, under no law. -/
def drawRng (event n : Nat) : List Byte := (List.range n).map (fun i => Config.rngByte event i)

/-! ### Start and completion -/

/-- What a command computes: an error code, or a result string with, for IVGEN, the IV to write back (R11, R400). -/
structure Success where
  /-- the result `R` -/
  out : List Byte
  /-- the generated IV (R261) -/
  iv : Option (List Byte)
deriving DecidableEq, Repr

/-- The outcome of a command: exactly one of an error and a success (R400). -/
abbrev CommandOutcome := Except ErrCode Success

/-- The check of a command's pseudocode: `if not c then raise Err(e)` (R10). -/
def require (c : Prop) [Decidable c] (e : ErrCode) : Except ErrCode Unit := if c then .ok () else .error e

/-- The operands of a command are latched and the flags and result registers cleared: the effect of START (R37, R51). -/
def latchCommand (s : State) : State :=
  { s with
    busy := true
    done := false
    err := false
    errcode := 0
    reslen := 0
    lcmd := s.cmd
    larg := s.arg
    lmem := s.dmem }

/-- START of a command while idle (R37), with its latency drawn (R520; log entry 3). -/
def startCommand (s : State) : State :=
  { latchCommand s with
    wait := Config.latency s.event
    event := s.event + 1 }

/-- The memory after a successful commit: the generated IV first, then the result, so the output wins where they overlap
(R95, steps 1 and 2). -/
def commitMemory (r : Success) (s : State) : Memory :=
  ((match r.iv with
    | some iv => s.dmem.write (s.larg[4]).toNat iv
    | none => s.dmem).write (s.larg[6]).toNat r.out)

/-- Completion with `result R`: one indivisible step (R95, R408). -/
def completeOk (r : Success) (s : State) : State :=
  { s with
    dmem := commitMemory r s
    reslen := BitVec.ofNat 32 r.out.length
    errcode := 0
    err := false
    busy := false
    done := true
    event := s.event + 1 }

/-- Completion with `raise Err(code)`, the block's way of taking an exception: no memory write, the code in ERRCODE, ERR and
DONE set, BUSY cleared; nothing is saved and control passes nowhere (R96, R400, R402, R408). -/
def completeErr (e : ErrCode) (s : State) : State :=
  { s with
    reslen := 0
    errcode := e.code
    err := true
    busy := false
    done := true
    event := s.event + 1 }

/-- The completion step, the engine's only step (R408). -/
def complete (o : CommandOutcome) (s : State) : State :=
  match o with
  | .ok r => completeOk r s
  | .error e => completeErr e s

/-! ### Resets -/

/-- The hard reset (R500, R501): every register at its reset value, every DMEM byte unspecified, a command in progress
abandoned. The parameters stay, and so do the host's inputs, the responses already given and the count of draws (log
entry 18). -/
def hardReset (s : State) : State :=
  { State.reset with
    cfg := s.cfg
    event := s.event
    inputs := s.inputs
    responses := s.responses }

/-- A command with a generated IV to write back (R261, R502). -/
def writesBackIv (w : Word) : Bool :=
  match decode w with
  | .ok (.gostCfbEnc _ ivgen) => ivgen
  | .ok (.gostOfbEnc _ ivgen) => ivgen
  | _ => false

/-- DMEM after the command in progress is abandoned: its output region, and with IVGEN its IV region, become unspecified;
every other byte is unchanged (R502; log entry 10). -/
def abandonedMemory (s : State) : Memory :=
  if writesBackIv s.lcmd
  then (s.dmem.forget (s.larg[6]).toNat (s.larg[7]).toNat).forget (s.larg[4]).toNat 8
  else s.dmem.forget (s.larg[6]).toNat (s.larg[7]).toNat

/-- The soft reset (R38, R502): the registers as after a hard reset; DMEM kept, but for the regions of an abandoned command. -/
def softReset (s : State) : State :=
  { hardReset s with dmem := if s.busy then abandonedMemory s else s.dmem }

/-! ### Whose turn it is -/

/-- The command word of the command in progress: the latched one (R51). -/
def fetchWord (s : State) : Word := s.lcmd

/-- The engine moves next: a command is in progress and either its latency has passed or the host has no further input
(R30, R520, R521; log entry 3). -/
def engineTurn (s : State) : Bool := s.busy && (s.wait == 0 || s.inputs.isEmpty)

/-- The host's next input is taken from the queue. -/
def takeInput (rest : List Input) (s : State) : State := { s with inputs := rest, wait := s.wait - 1 }

/-- The bus response to the transaction at hand (R81). -/
def respond (r : Response) (s : State) : State := { s with responses := r :: s.responses }

end Sys2Proof.Machine
end

