-- ==== Sys2Proof/Machine/Operands.lean ====
section
/-! DEFINITION. The operand forms: descriptor pairs of the latched ARG registers (R93, R124, R125), the checks of R201, R203
and R258, the registers by window offset (R33), and what a bus transaction addresses (R80 to R85). -/

namespace Sys2Proof.Machine

/-- The four descriptor pairs (R48, R124). -/
inductive Pair where
  /-- (ARG0, ARG1): A, the data -/
  | a
  /-- (ARG2, ARG3): B, the exponent or the key -/
  | b
  /-- (ARG4, ARG5): the modulus or the IV -/
  | m
  /-- (ARG6, ARG7): the output and its capacity -/
  | out
deriving DecidableEq, Repr

/-- The number of a pair; also the number of its reads among the draws of a command (log entry 12). -/
def Pair.slot : Pair → Nat
  | .a => 0
  | .b => 1
  | .m => 2
  | .out => 3

/-- The latched offset of a pair, a DMEM byte offset, unsigned and unscaled (R125). -/
def offset (s : State) : Pair → Nat
  | .a => (s.larg[0]).toNat
  | .b => (s.larg[2]).toNat
  | .m => (s.larg[4]).toNat
  | .out => (s.larg[6]).toNat

/-- The latched length or capacity of a pair, a byte count (R125). -/
def length (s : State) : Pair → Nat
  | .a => (s.larg[1]).toNat
  | .b => (s.larg[3]).toNat
  | .m => (s.larg[5]).toNat
  | .out => (s.larg[7]).toNat

/-- The region of a pair lies inside DMEM; the sum never wraps (R93). -/
abbrev inRange (s : State) (p : Pair) : Prop := offset s p + length s p ≤ s.cfg.dmemBytes

/-- `chk(o, n)` (R203). -/
def chk (s : State) (p : Pair) : Except ErrCode Unit := require (inRange s p) .rangeError

/-- `MemRead(o, n)` inside a command: the data memory as it was at START (R10, R94), by a read of pair `p`. -/
def readFor (s : State) (p : Pair) (o n : Nat) : List Byte := s.lmem.read s.event p.slot o n

/-- The whole byte string a pair names (R93). -/
def operand (s : State) (p : Pair) : List Byte := readFor s p (offset s p) (length s p)

/-- The big integer a pair names (R87). -/
def bigint (s : State) (p : Pair) : Nat := be (operand s p)

/-- The operand size limit (R201). -/
def sizeLimit (s : State) (p : Pair) (limit : Nat) : Except ErrCode Unit :=
  require (length s p ≤ limit) .operandTooLarge

/-- `fit(R)` (R203). -/
def fit (s : State) (r : List Byte) : Except ErrCode Unit := require (r.length ≤ length s .out) .outputTooSmall

/-- The GOST key check (R258). -/
def keyCheck (s : State) : Except ErrCode Unit := require (length s .b = 32) .keyLengthError

/-- The GOST IV check (R261). -/
def ivCheck (s : State) : Except ErrCode Unit := require (length s .m = 8) .ivLengthError

/-- The last lines of every command: `fit(R); result R` (R10, R203). -/
def result (s : State) (r : List Byte) : CommandOutcome := do
  fit s r
  return ⟨r, none⟩

/-! ### The bus window -/

/-- The registers of R33. -/
inductive Reg where
  | hwid
  | cfg0
  | cfg1
  | ctrl
  | status
  | errcode
  | reslen
  | cmd
  | arg (k : Fin 8)
  | reserved
deriving DecidableEq, Repr

/-- The register at an aligned offset of the register window (R33). -/
def Reg.ofOffset (o : Nat) : Reg :=
  if o = 0x00 then .hwid
  else if o = 0x04 then .cfg0
  else if o = 0x08 then .cfg1
  else if o = 0x0C then .ctrl
  else if o = 0x10 then .status
  else if o = 0x14 then .errcode
  else if o = 0x18 then .reslen
  else if o = 0x1C then .cmd
  else if h : 0x20 ≤ o ∧ o ≤ 0x3C then .arg ⟨(o - 0x20) / 4, by omega⟩
  else .reserved

/-- The number of bytes of a transaction (R81). -/
def Width.bytes : Width → Nat
  | .byte => 1
  | .half => 2
  | .word => 4

/-- What a transaction addresses: a register, a DMEM offset, or nothing it may address (an ERROR response). -/
inductive Target where
  | register (r : Reg)
  | dmem (o : Nat)
  | error
deriving DecidableEq, Repr

/-- The address map (R80) with the access rules: registers take aligned 32-bit accesses only (R82); a DMEM access is
naturally aligned and lies wholly inside DMEM (R85); everything else is an ERROR (R84). -/
def target (dmemBytes : Nat) (t : Transaction) : Target :=
  if t.addr.toNat < 0x100 then
    if t.width = .word ∧ t.addr.toNat % 4 = 0 then .register (Reg.ofOffset t.addr.toNat) else .error
  else if 0x10000 ≤ t.addr.toNat ∧ (t.addr.toNat - 0x10000) % t.width.bytes = 0
      ∧ t.addr.toNat - 0x10000 + t.width.bytes ≤ dmemBytes then
    .dmem (t.addr.toNat - 0x10000)
  else .error

/-- The value of a string of little-endian byte lanes: the sum of `DMEM[o+i] << 8i` (R86). -/
def le : List Byte → Nat
  | [] => 0
  | b :: bs => b.toNat + 256 * le bs

/-- The `n` little-endian byte lanes of a written value: byte `i` is bits `8i+7 .. 8i` (R86). -/
def toLE (n : Nat) (v : Word) : List Byte := (List.range n).map (fun i => v.extractLsb' (8 * i) 8)

end Sys2Proof.Machine
end

