-- ==== Sys2Proof/Machine/Bus.lean ====
section
/-! DEFINITION. The host's bus transactions (R33 to R49, R81 to R92): register reads and writes, DMEM accesses, and the
handling of one host input. -/

namespace Sys2Proof.Machine

/-- The identity constant of HWID (R34). -/
def hwid : Word := 0x4D580100

/-- What a read of a register returns (R34 to R49); no read has a side effect (R91). -/
def regRead (s : State) : Reg → Word
  | .hwid => hwid
  | .cfg0 => BitVec.ofNat 32 s.cfg.dmemBytes
  | .cfg1 => (BitVec.ofNat 16 s.cfg.maxBytes).setWidth 32
  | .ctrl => ctrlWord s
  | .status => statusWord s
  | .errcode => s.errcode.setWidth 32
  | .reslen => s.reslen
  | .cmd => s.cmd
  | .arg k => s.arg[k]
  | .reserved => 0

/-- A write the block drops because a command is in progress: its only trace is WERR (R43, R407). -/
def dropWrite (s : State) : State := { s with werr := true }

/-- A host write to CTRL with SRST = 0: IRQEN takes bit 2, and START = 1 starts a command when idle or sets WERR when busy
(R37, R39). -/
def writeCtrl (v : Word) (s : State) : State :=
  if v.getLsbD 0 then
    if s.busy then dropWrite { s with irqen := v.getLsbD 2 } else startCommand { s with irqen := v.getLsbD 2 }
  else { s with irqen := v.getLsbD 2 }

/-- A host write to a register (R34 to R49): read-only and reserved registers ignore it; CMD and ARG drop it while BUSY
(R43, R47, R48, R510); CTRL with SRST = 1 is a soft reset whatever its other bits (R38). -/
def regWrite (v : Word) (s : State) : Reg → State
  | .ctrl => if v.getLsbD 1 then softReset s else writeCtrl v s
  | .status => clearStatus v s
  | .cmd => if s.busy then dropWrite s else { s with cmd := v }
  | .arg k => if s.busy then dropWrite s else { s with arg := s.arg.set k v }
  | .hwid => s
  | .cfg0 => s
  | .cfg1 => s
  | .errcode => s
  | .reslen => s
  | .reserved => s

/-- The memory a host DMEM read sees: while a command is in progress no byte has a value the host may rely on (R89, R511;
log entry 11). -/
def hostView (s : State) : Memory := if s.busy then [] else s.dmem

/-- The value a host DMEM read of `n` bytes at DMEM offset `o` returns, zero-extended (R86, R89; log entry 17). -/
def dmemRead (s : State) (o n : Nat) : Word := BitVec.ofNat 32 (le ((hostView s).read s.event 0 o n))

/-- A host DMEM write of the `n` low bytes of `v` at DMEM offset `o`: at once while idle, dropped while BUSY (R86, R90). -/
def dmemWrite (v : Word) (o n : Nat) (s : State) : State :=
  if s.busy then dropWrite s else { s with dmem := s.dmem.write o (toLE n v) }

/-- A DMEM read is a draw of free values (R89; log entry 1). -/
def countDraw (s : State) : State := { s with event := s.event + 1 }

/-- One bus transaction, with its response (R81): an ERROR response has no effect on any other state (R406). -/
def busTransaction (t : Transaction) (s : State) : State :=
  match target s.cfg.dmemBytes t, t.dir with
  | .register r, .read => respond (.okayRead (regRead s r)) s
  | .register r, .write v => respond .okayWrite (regWrite v s r)
  | .dmem o, .read => respond (.okayRead (dmemRead s o t.width.bytes)) (countDraw s)
  | .dmem o, .write v => respond .okayWrite (dmemWrite v o t.width.bytes s)
  | .error, _ => respond .error s

/-- One input of the host (R81, R500). -/
def hostInput (i : Input) (s : State) : State :=
  match i with
  | .bus t => busTransaction t s
  | .hardReset => hardReset s

/-- The host's turn: its next input, or nothing when it has none (R503: the block is idle and waits). -/
def hostTurn (s : State) : State :=
  match s.inputs with
  | [] => s
  | i :: rest => hostInput i (takeInput rest s)

end Sys2Proof.Machine
end

