-- ==== Sys2Proof/Machine/BigInt.lean ====
section
/-! DEFINITION. Big-integer arithmetic and the RSA transform: MUL, MOD, MULMOD, MODPOW, RSA_ENC, RSA_DEC (R200 to R211). -/

namespace Sys2Proof.Machine

/-- `bitlen(n)`, with `bitlen(0) = 0` (R208). -/
def bitlen (n : Nat) : Nat := if n = 0 then 0 else Nat.log2 n + 1

/-- The loop of R208: bits `n-1` down to 0 of the exponent `e`, from the running value `r`, with `x` the reduced base. -/
def powLoop (x e m : Nat) : Nat → Nat → Nat
  | 0, r => r
  | n + 1, r => powLoop x e m n (if e.testBit n then (r * r % m) * x % m else r * r % m)

/-- Left-to-right square and multiply (R208). Its value is `(a ** e) mod m` of R207. -/
def modPow (a e m : Nat) : Nat := powLoop (a % m) e m (bitlen e) (1 % m)

/-- MUL (R204). -/
def mulOutcome (s : State) : CommandOutcome := do
  chk s .a; chk s .b; chk s .out
  sizeLimit s .a s.cfg.maxBytes; sizeLimit s .b s.cfg.maxBytes
  result s (toBE (length s .a + length s .b) (bigint s .a * bigint s .b))

/-- MOD (R205); the dividend may be twice as long (R201). -/
def modOutcome (s : State) : CommandOutcome := do
  chk s .a; chk s .m; chk s .out
  sizeLimit s .a (2 * s.cfg.maxBytes); sizeLimit s .m s.cfg.maxBytes
  require (bigint s .m ≠ 0) .divideByZero
  result s (toBE (length s .m) (bigint s .a % bigint s .m))

/-- The checks shared by MULMOD, MODPOW, RSA_ENC and RSA_DEC (R206, R207, R209, R210): the four descriptors, the three
sizes, the modulus not 0 (R202). -/
def threeOperandChecks (s : State) : Except ErrCode Unit := do
  chk s .a; chk s .b; chk s .m; chk s .out
  sizeLimit s .a s.cfg.maxBytes; sizeLimit s .b s.cfg.maxBytes; sizeLimit s .m s.cfg.maxBytes
  require (bigint s .m ≠ 0) .divideByZero

/-- MULMOD (R206): the operands need not be below the modulus. -/
def mulmodOutcome (s : State) : CommandOutcome := do
  threeOperandChecks s
  result s (toBE (length s .m) (bigint s .a * bigint s .b % bigint s .m))

/-- MODPOW (R207). -/
def modpowOutcome (s : State) : CommandOutcome := do
  threeOperandChecks s
  result s (toBE (length s .m) (modPow (bigint s .a) (bigint s .b) (bigint s .m)))

/-- The RSA transform of one integer block: an input not below the modulus is refused with `tooLarge` (R209, R210). The
block checks no key relation (R211). -/
def rsaOutcome (tooLarge : ErrCode) (s : State) : CommandOutcome := do
  threeOperandChecks s
  require (bigint s .a < bigint s .m) tooLarge
  result s (toBE (length s .m) (modPow (bigint s .a) (bigint s .b) (bigint s .m)))

/-- MUL (R204). -/
def execMul (s : State) : Host.Outcome State Fault Refusal := .next (complete (mulOutcome s) s)

/-- MOD (R205). -/
def execMod (s : State) : Host.Outcome State Fault Refusal := .next (complete (modOutcome s) s)

/-- MULMOD (R206). -/
def execMulmod (s : State) : Host.Outcome State Fault Refusal := .next (complete (mulmodOutcome s) s)

/-- MODPOW (R207, R208). -/
def execModpow (s : State) : Host.Outcome State Fault Refusal := .next (complete (modpowOutcome s) s)

/-- RSA_ENC (R209): the message integer not below `n` raises ENCODING_ERROR (C2 of 90_conflicts.md). -/
def execRsaEnc (s : State) : Host.Outcome State Fault Refusal := .next (complete (rsaOutcome .encodingError s) s)

/-- RSA_DEC (R210): the ciphertext integer not below `n` raises DECRYPTION_ERROR (C2, C7 of 90_conflicts.md). -/
def execRsaDec (s : State) : Host.Outcome State Fault Refusal := .next (complete (rsaOutcome .decryptionError s) s)

end Sys2Proof.Machine
end

