-- ==== Sys2Proof/Machine/Cipher.lean ====
section
/-! DEFINITION. The GOST block cipher and its two stream modes (R250 to R256, R262, R263), for any substitution table. -/

namespace Sys2Proof.Machine

/-- A substitution table (R252). -/
abbrev Sbox := Vector (Vector (BitVec 4) 16) 8

/-- Nibble `i` of `a` through row `SBOX[i]`, back at its place (R252). -/
def substNibble (sbox : Sbox) (a : Word) (i : Fin 8) : Word :=
  ((sbox.get i).get (a.extractLsb' (4 * i.val) 4).toFin).setWidth 32 <<< (4 * i.val)

/-- `t(a)`: the eight S-boxes on the eight nibbles (R252). -/
def subst (sbox : Sbox) (a : Word) : Word :=
  substNibble sbox a 0 + substNibble sbox a 1 + substNibble sbox a 2 + substNibble sbox a 3
    + substNibble sbox a 4 + substNibble sbox a 5 + substNibble sbox a 6 + substNibble sbox a 7

/-- The round function `g(k, a) = rotl32(t(a + k), 11)` (R253). -/
def roundG (sbox : Sbox) (k a : Word) : Word := (subst sbox (a + k)).rotateLeft 11

/-- The Feistel rounds over a schedule on the halves `(a1, a0)`; the last round does not swap (R254). -/
def feistelRounds (sbox : Sbox) : List Word → Word × Word → Word × Word
  | [], h => h
  | [k], h => (roundG sbox k h.2 ^^^ h.1, h.2)
  | k :: ks, h => feistelRounds sbox ks (h.2, roundG sbox k h.2 ^^^ h.1)

/-- `feistel(ks, X)`: `a1 = X[63:32]`, `a0 = X[31:0]`, and back as `a1 * 2^32 + a0` (R250, R254). -/
def feistel (sbox : Sbox) (ks : List Word) (x : BitVec 64) : BitVec 64 :=
  let h := feistelRounds sbox ks (x.extractLsb' 32 32, x.extractLsb' 0 32)
  h.1 ++ h.2

/-- The eight subkeys: `K_j` is the big-endian word of key bytes `4(j-1) .. 4j-1` (R251). -/
def subkeys (key : List Byte) : List Word :=
  (List.range 8).map (fun j => BitVec.ofNat 32 (be ((key.drop (4 * j)).take 4)))

/-- The encryption schedule: K1..K8 three times, then K8..K1 (R255; C1 of 90_conflicts.md). -/
def encSchedule (key : List Byte) : List Word :=
  subkeys key ++ subkeys key ++ subkeys key ++ (subkeys key).reverse

/-- The decryption schedule: K1..K8, then K8..K1 three times (R256). -/
def decSchedule (key : List Byte) : List Word :=
  subkeys key ++ (subkeys key).reverse ++ (subkeys key).reverse ++ (subkeys key).reverse

/-- A block through a schedule: big-endian in and out (R250). -/
def cipherBlock (sbox : Sbox) (schedule : List Word) (b : List Byte) : List Byte :=
  toBE 8 (feistel sbox schedule (BitVec.ofNat 64 (be b))).toNat

/-- `E_K` on an 8-byte block (R250, R255). -/
def encryptBlock (sbox : Sbox) (key b : List Byte) : List Byte := cipherBlock sbox (encSchedule key) b

/-- `D_K` on an 8-byte block (R250, R256). -/
def decryptBlock (sbox : Sbox) (key b : List Byte) : List Byte := cipherBlock sbox (decSchedule key) b

/-- `ceil(|X| / 8)`, the number of blocks of a stream, the last of which may be short (R262). -/
def streamBlocks (x : List Byte) : Nat := (x.length + 7) / 8

/-- The cipher-feedback loop of R262 over `n` blocks, from the feedback register `reg`; `enc` is the direction: the feedback
is always the ciphertext block. -/
def cfbLoop (sbox : Sbox) (key : List Byte) (enc : Bool) : Nat → List Byte → List Byte → List Byte
  | 0, _, _ => []
  | n + 1, reg, x =>
    let y := xorBytes (x.take 8) (encryptBlock sbox key reg)
    y ++ cfbLoop sbox key enc n (if enc then y else x.take 8) (x.drop 8)

/-- `cfb(dir, K, iv, X)` (R262): both directions use `E_K`. -/
def cfb (sbox : Sbox) (enc : Bool) (key iv x : List Byte) : List Byte := cfbLoop sbox key enc (streamBlocks x) iv x

/-- The output-feedback loop of R263 over `n` blocks, from the register `reg`. -/
def ofbLoop (sbox : Sbox) (key : List Byte) : Nat → List Byte → List Byte → List Byte
  | 0, _, _ => []
  | n + 1, reg, x =>
    let reg' := encryptBlock sbox key reg
    xorBytes (x.take 8) reg' ++ ofbLoop sbox key n reg' (x.drop 8)

/-- `ofb(K, iv, X)` (R263). -/
def ofb (sbox : Sbox) (key iv x : List Byte) : List Byte := ofbLoop sbox key (streamBlocks x) iv x

end Sys2Proof.Machine
end

