-- ==== Sys2Proof/Machine/Gost.lean ====
section
/-! DEFINITION. The GOST commands: the block commands (R259, R260) and the stream commands with their IV and envelope
(R261, R264 to R268). -/

namespace Sys2Proof.Machine

/-- GOST_ECB_ENC and GOST_ECB_DEC, `f key` being `E_K` or `D_K`: on each 8-byte block of the data (R259, R260). -/
def ecbOutcome (f : List Byte → List Byte → List Byte) (s : State) : CommandOutcome := do
  chk s .a; chk s .b; chk s .out
  keyCheck s
  require (length s .a % 8 = 0) .formatError
  result s (mapBlocks (f (operand s .b)) 8 (length s .a / 8) (operand s .a))

/-- The IV of a stream encrypt command: drawn with IVGEN = 1, read from the IV region otherwise (R261). -/
def encryptIv (s : State) (ivgen : Bool) : List Byte :=
  if ivgen then drawRng s.event 8 else readFor s .m (offset s .m) 8

/-- The stream encrypt commands, `mode key iv data` being the keystream mode (R264, R266): the IV length is checked with
IVGEN too, the envelope puts the IV in front (R268), and a generated IV is written back at commit (R261). -/
def streamEncOutcome (mode : List Byte → List Byte → List Byte → List Byte) (env ivgen : Bool) (s : State) :
    CommandOutcome := do
  chk s .a; chk s .b; chk s .m; chk s .out
  keyCheck s
  ivCheck s
  let iv := encryptIv s ivgen
  let c := mode (operand s .b) iv (operand s .a)
  let r := if env then iv ++ c else c
  fit s r
  return ⟨r, if ivgen then some iv else none⟩

/-- The stream decrypt commands (R265, R267). With ENV = 1 the IV is the first 8 bytes of the input and the pair
(ARG4, ARG5) is neither used nor checked; with ENV = 0 the IV comes from it (R261). -/
def streamDecOutcome (mode : List Byte → List Byte → List Byte → List Byte) (env : Bool) (s : State) :
    CommandOutcome := do
  chk s .a; chk s .b
  require (env = true ∨ inRange s .m) .rangeError
  chk s .out
  keyCheck s
  if env then
    require (8 ≤ length s .a) .formatError
    result s (mode (operand s .b) (readFor s .a (offset s .a) 8) (readFor s .a (offset s .a + 8) (length s .a - 8)))
  else
    ivCheck s
    result s (mode (operand s .b) (readFor s .m (offset s .m) 8) (operand s .a))

/-- GOST_ECB_ENC (R259). -/
def execGostEcbEnc (s : State) : Host.Outcome State Fault Refusal :=
  .next (complete (ecbOutcome (encryptBlock s.cfg.sbox) s) s)

/-- GOST_ECB_DEC (R260). -/
def execGostEcbDec (s : State) : Host.Outcome State Fault Refusal :=
  .next (complete (ecbOutcome (decryptBlock s.cfg.sbox) s) s)

/-- GOST_CFB_ENC (R264). -/
def execGostCfbEnc (env ivgen : Bool) (s : State) : Host.Outcome State Fault Refusal :=
  .next (complete (streamEncOutcome (cfb s.cfg.sbox true) env ivgen s) s)

/-- GOST_CFB_DEC (R265). -/
def execGostCfbDec (env : Bool) (s : State) : Host.Outcome State Fault Refusal :=
  .next (complete (streamDecOutcome (cfb s.cfg.sbox false) env s) s)

/-- GOST_OFB_ENC (R266). -/
def execGostOfbEnc (env ivgen : Bool) (s : State) : Host.Outcome State Fault Refusal :=
  .next (complete (streamEncOutcome (ofb s.cfg.sbox) env ivgen s) s)

/-- GOST_OFB_DEC (R267). -/
def execGostOfbDec (env : Bool) (s : State) : Host.Outcome State Fault Refusal :=
  .next (complete (streamDecOutcome (ofb s.cfg.sbox) env s) s)

end Sys2Proof.Machine
end

