-- ==== Sys2Proof/Machine/Permutation.lean ====
section
/-! DEFINITION. The block-permutation commands PERM_ENC and PERM_DEC (R300 to R306). -/

namespace Sys2Proof.Machine

/-- A valid key: 2 to 10 ASCII digits, each below `N`, pairwise distinct (R300). -/
abbrev KeyValid (kk : List Byte) : Prop :=
  2 ≤ kk.length ∧ kk.length ≤ 10 ∧ (∀ b ∈ kk, 0x30 ≤ b.toNat ∧ b.toNat ≤ 0x30 + kk.length - 1) ∧ kk.Nodup

/-- `π(i) = kk[i] - 0x30` (R301). -/
def permIndex (kk : List Byte) (i : Nat) : Nat := (kk.getD i 0).toNat - 0x30

/-- The number of padding bytes: `p = N - (L mod N)` (R302). -/
def padLength (N L : Nat) : Nat := N - L % N

/-- The data with its padding: `p` bytes of value `p` (R302). -/
def padded (N : Nat) (x : List Byte) : List Byte :=
  x ++ List.replicate (padLength N x.length) (BitVec.ofNat 8 (padLength N x.length))

/-- One block encrypted: `out[π(i)] = in[i]` (R303). -/
def permuteBlock (kk x : List Byte) : List Byte :=
  (List.range kk.length).foldl (fun r i => r.set (permIndex kk i) (x.getD i 0)) (List.replicate kk.length 0)

/-- One block decrypted: `out[i] = in[π(i)]` (R303). -/
def unpermuteBlock (kk x : List Byte) : List Byte :=
  (List.range kk.length).map (fun i => x.getD (permIndex kk i) 0)

/-- The whole encryption of R304: pad, then transpose block by block. -/
def permEncrypt (kk x : List Byte) : List Byte :=
  mapBlocks (permuteBlock kk) kk.length ((padded kk.length x).length / kk.length) (padded kk.length x)

/-- The inverse transposition of R306, block by block. -/
def permInvert (kk c : List Byte) : List Byte :=
  mapBlocks (unpermuteBlock kk) kk.length (c.length / kk.length) c

/-- The padding byte count a string claims: its last byte (R305, R306). -/
def lastByte (q : List Byte) : Nat := (q.getLastD 0).toNat

/-- The padding check: the last byte `p` is from 1 to `N` and the last `p` bytes all equal it (R305). -/
abbrev PaddingValid (q : List Byte) (N : Nat) : Prop :=
  1 ≤ lastByte q ∧ lastByte q ≤ N ∧ ∀ b ∈ q.drop (q.length - lastByte q), b.toNat = lastByte q

/-- PERM_ENC (R304). -/
def permEncOutcome (s : State) : CommandOutcome := do
  chk s .a; chk s .b; chk s .out
  require (KeyValid (operand s .b)) .invalidKeyError
  result s (permEncrypt (operand s .b) (operand s .a))

/-- PERM_DEC (R306): the length check, then the padding check, then the padding is stripped. -/
def permDecOutcome (s : State) : CommandOutcome := do
  chk s .a; chk s .b; chk s .out
  require (KeyValid (operand s .b)) .invalidKeyError
  require (length s .a ≠ 0 ∧ length s .a % length s .b = 0) .decryptionError
  let q := permInvert (operand s .b) (operand s .a)
  require (PaddingValid q (length s .b)) .decryptionError
  result s (q.take (length s .a - lastByte q))

/-- PERM_ENC (R304). -/
def execPermEnc (s : State) : Host.Outcome State Fault Refusal := .next (complete (permEncOutcome s) s)

/-- PERM_DEC (R306). -/
def execPermDec (s : State) : Host.Outcome State Fault Refusal := .next (complete (permDecOutcome s) s)

end Sys2Proof.Machine
end

