-- ==== Sys2Proof/Machine/Service.lean ====
section
/-! DEFINITION. The service commands NOP and RNG_FILL (R330, R331). -/

namespace Sys2Proof.Machine

/-- NOP: `result empty`; no pair is used or checked (R330). -/
def nopOutcome : CommandOutcome := .ok ⟨[], none⟩

/-- RNG_FILL: ARG7 drawn bytes (R331). -/
def rngFillOutcome (s : State) : CommandOutcome := do
  chk s .out
  return ⟨drawRng s.event (length s .out), none⟩

/-- NOP (R330). -/
def execNop (s : State) : Host.Outcome State Fault Refusal := .next (complete nopOutcome s)

/-- RNG_FILL (R331). -/
def execRngFill (s : State) : Host.Outcome State Fault Refusal := .next (complete (rngFillOutcome s) s)

end Sys2Proof.Machine
end

