-- ==== Sys2Proof/Machine/Dispatch.lean ====
section
/-! DEFINITION. One arm per command: what the completion of a decoded command does (R408). -/

namespace Sys2Proof.Machine

def exec (i : Instr) (s : State) : Host.Outcome State Fault Refusal :=
  match i with
  | .nop => Sys2Proof.Machine.execNop s
  | .mul => Sys2Proof.Machine.execMul s
  | .mod => Sys2Proof.Machine.execMod s
  | .mulmod => Sys2Proof.Machine.execMulmod s
  | .modpow => Sys2Proof.Machine.execModpow s
  | .rsaEnc => Sys2Proof.Machine.execRsaEnc s
  | .rsaDec => Sys2Proof.Machine.execRsaDec s
  | .gostEcbEnc => Sys2Proof.Machine.execGostEcbEnc s
  | .gostEcbDec => Sys2Proof.Machine.execGostEcbDec s
  | .gostCfbEnc env ivgen => Sys2Proof.Machine.execGostCfbEnc env ivgen s
  | .gostCfbDec env => Sys2Proof.Machine.execGostCfbDec env s
  | .gostOfbEnc env ivgen => Sys2Proof.Machine.execGostOfbEnc env ivgen s
  | .gostOfbDec env => Sys2Proof.Machine.execGostOfbDec env s
  | .permEnc => Sys2Proof.Machine.execPermEnc s
  | .permDec => Sys2Proof.Machine.execPermDec s
  | .rngFill => Sys2Proof.Machine.execRngFill s

end Sys2Proof.Machine
end

