-- ==== Sys2Proof/Machine/Step.lean ====
section
/-! DEFINITION. One step of the block: one completion of the engine, or one input of the host, never both (R30, R92). -/

namespace Sys2Proof.Machine

/-- The engine's step: the command in progress completes; an illegal word completes with ILLEGAL_COMMAND (R128, R408). -/
def engineStep (s : State) : Host.Outcome State Fault Refusal :=
  match decode (fetchWord s) with
  | .ok i => exec i s
  | .error _ => .next (complete (.error .illegalCommand) s)

/-- One step. While a command is in progress, `wait` (plain data) says whether the engine or the host moves next (R520). -/
def step (s : State) : Host.Outcome State Fault Refusal :=
  if engineTurn s then engineStep s else .next (hostTurn s)

/-- The state in which the very next step runs the command whose word is `w`: CMD holds it and the host has just started it
(R37), with no further host input before its completion (log entry 5). -/
def State.withFetchWord (s : State) (nbits w : Nat) : State :=
  { latchCommand { s with cmd := BitVec.ofNat 32 (w % 2 ^ nbits) } with wait := 0 }

end Sys2Proof.Machine
end

