-- ==== Sys2Proof/Machine/HostProgram.lean ====
section
/-! DEFINITION. Host-program statements and pseudo-instructions as lists of bus inputs (R131, R132). Host variables and host
control flow (labels, WAIT's loop) are executed by the host, not by the block (log entry 24). -/

namespace Sys2Proof.Machine

/-- `W32 a, v` (R131). -/
def w32 (a : WindowOffset) (v : Word) : Input := .bus ⟨a, .word, .write v⟩

/-- `W16 a, v` (R131). -/
def w16 (a : WindowOffset) (v : Word) : Input := .bus ⟨a, .half, .write v⟩

/-- `W8 a, v` (R131). -/
def w8 (a : WindowOffset) (v : Word) : Input := .bus ⟨a, .byte, .write v⟩

/-- `R32 a` (R131). -/
def r32 (a : WindowOffset) : Input := .bus ⟨a, .word, .read⟩

/-- `R16 a` (R131). -/
def r16 (a : WindowOffset) : Input := .bus ⟨a, .half, .read⟩

/-- `R8 a` (R131). -/
def r8 (a : WindowOffset) : Input := .bus ⟨a, .byte, .read⟩

/-- `STORE o, "hh hh ..."`: one byte write per byte, offsets rising (R132). -/
def store : Nat → List Byte → List Input
  | _, [] => []
  | o, b :: bs => w8 (BitVec.ofNat 17 (0x10000 + o)) (b.setWidth 32) :: store (o + 1) bs

/-- `LOAD o, n` (R132). -/
def load (o n : Nat) : List Input := (List.range n).map (fun i => r8 (BitVec.ofNat 17 (0x10000 + o + i)))

/-- `ARGS v0,...,v7` (R132). -/
def args (v : Vector Word 8) : List Input :=
  (List.finRange 8).map (fun k => w32 (BitVec.ofNat 17 (0x20 + 4 * k.val)) v[k])

/-- `START cmdword` (R132). -/
def start (cmdword : Word) : List Input := [w32 0x1C cmdword, w32 0x0C 0x00000001]

/-- `START.I cmdword`: START with IRQEN = 1 (R132). -/
def startI (cmdword : Word) : List Input := [w32 0x1C cmdword, w32 0x0C 0x00000005]

/-- One turn of `WAIT`: a read of STATUS (R132). -/
def poll : Input := r32 0x10

/-- `ACK`: clears DONE, ERR and WERR (R132, R410). -/
def ack : List Input := [w32 0x10 0x0000000E]

/-- `SRESET` (R132). -/
def sreset : List Input := [w32 0x0C 0x00000002]

/-- `RUN <command>` up to its WAIT: the descriptors of the command (0 in every unused ARG), then START (R130, R132). -/
def run (i : Instr) (v : Vector Word 8) : List Input := args v ++ start (encode i)

end Sys2Proof.Machine
end

