-- ==== Sys2Proof/Safety.lean ====
section
/-! DEFINITION. What holds of every state a run reaches, what a safe run is, and the terms the statements use for a command
that succeeds, a command that fails and what neither changes. -/

namespace Sys2Proof.Machine

/-- A memory of a block with `n` bytes: canonical, and every listed offset exists (R50, R80). -/
abbrev Memory.inside (m : Memory) (n : Nat) : Prop := m.wf ∧ ∀ c ∈ m, c.1 < n

/-- The invariant of the block. -/
structure State.Inv (s : State) : Prop where
  /-- DMEM is canonical, and every specified byte lies inside it (R50) -/
  dmem_inside : s.dmem.inside s.cfg.dmemBytes
  /-- so is the memory latched at START (R51) -/
  lmem_inside : s.lmem.inside s.cfg.dmemBytes
  /-- DONE = 1 implies BUSY = 0 (R41) -/
  done_idle : s.done = true → s.busy = false
  /-- ERRCODE holds one of the codes of R403 -/
  errcode_legal : s.errcode ∈ legalErrcodes
  /-- while BUSY the flags and result registers read as START left them (R37, R511) -/
  busy_clear : s.busy = true → s.done = false ∧ s.err = false ∧ s.errcode = 0 ∧ s.reslen = 0
  /-- while BUSY the latched word, operands and memory are those of CMD, ARG and DMEM (R51, R94) -/
  busy_latched : s.busy = true → s.lcmd = s.cmd ∧ s.larg = s.arg ∧ s.lmem = s.dmem

/-- A safe run of `n` steps from `s`: every step answers a next state, and the parameters never change. -/
def SafeRun (s : State) (n : Nat) : Prop :=
  ∃ t : State, Host.Core.run Sys2Proof.core n s = .next t ∧ t.cfg = s.cfg

/-- The descriptor pairs a command uses (R124); a stream decrypt with ENV = 1 does not use (ARG4, ARG5) (R261). -/
def usedPairs : Instr → List Pair
  | .nop => []
  | .mul => [.a, .b, .out]
  | .mod => [.a, .m, .out]
  | .mulmod => [.a, .b, .m, .out]
  | .modpow => [.a, .b, .m, .out]
  | .rsaEnc => [.a, .b, .m, .out]
  | .rsaDec => [.a, .b, .m, .out]
  | .gostEcbEnc => [.a, .b, .out]
  | .gostEcbDec => [.a, .b, .out]
  | .gostCfbEnc _ _ => [.a, .b, .m, .out]
  | .gostCfbDec env => if env then [.a, .b, .out] else [.a, .b, .m, .out]
  | .gostOfbEnc _ _ => [.a, .b, .m, .out]
  | .gostOfbDec env => if env then [.a, .b, .out] else [.a, .b, .m, .out]
  | .permEnc => [.a, .b, .out]
  | .permDec => [.a, .b, .out]
  | .rngFill => [.out]

/-- Every descriptor the command uses names a valid region (R93). -/
abbrev Ranged (i : Instr) (s : State) : Prop := ∀ p ∈ usedPairs i, inRange s p

/-- A command that generates its IV (R261). -/
def generatesIv : Instr → Bool
  | .gostCfbEnc _ ivgen => ivgen
  | .gostOfbEnc _ ivgen => ivgen
  | _ => false

/-- What no command changes: the parameters, IRQEN, WERR, CMD, ARG, the latched operands, and the model's own queues (R31,
R402, R408). -/
structure Kept (s t : State) : Prop where
  cfg : t.cfg = s.cfg
  irqen : t.irqen = s.irqen
  werr : t.werr = s.werr
  cmd : t.cmd = s.cmd
  arg : t.arg = s.arg
  lcmd : t.lcmd = s.lcmd
  larg : t.larg = s.larg
  lmem : t.lmem = s.lmem
  wait : t.wait = s.wait
  inputs : t.inputs = s.inputs
  responses : t.responses = s.responses

/-- The command succeeds with result string `r` and, for IVGEN, the written-back IV `iv`: exec answers a next state in
which BUSY, DONE, ERR, ERRCODE and RESLEN are as R408 says, and every DMEM byte is the result's inside the output
region's first `|r|` bytes, else the IV's inside the IV region, else what it was (R95). -/
def Commits (i : Instr) (s : State) (r : List Byte) (iv : Option (List Byte)) : Prop :=
  ∃ t : State, exec i s = .next t ∧ t.busy = false ∧ t.done = true ∧ t.err = false ∧ t.errcode = 0x00 ∧
    t.reslen.toNat = r.length ∧ Kept s t ∧
    ∀ a : Nat, t.dmem.get? a =
      if offset s .out ≤ a ∧ a < offset s .out + r.length then r[a - offset s .out]?
      else match iv with
        | some v => if offset s .m ≤ a ∧ a < offset s .m + v.length then v[a - offset s .m]? else s.dmem.get? a
        | none => s.dmem.get? a

/-- The command fails with an error code: exec answers a next state in which the flags, ERRCODE and RESLEN are as R408
says, and DMEM is as it was (R96, R409). -/
def Rejects (i : Instr) (s : State) (code : BitVec 8) : Prop :=
  ∃ t : State, exec i s = .next t ∧ t.busy = false ∧ t.done = true ∧ t.err = true ∧ t.errcode = code ∧
    t.reslen = 0 ∧ t.dmem = s.dmem ∧ Kept s t

/-- Block `j` of a string cut into 8-byte blocks, the last of which may be short (R262). -/
def block (x : List Byte) (j : Nat) : List Byte := (x.drop (8 * j)).take 8

/-- A host write of a 32-bit value at an aligned window offset. -/
abbrev isWrite (s : State) (a : WindowOffset) (v : Word) : Prop := s.inputs.head? = some (w32 a v)

/-- The next host input is a reset: the reset input, or a write of CTRL with SRST = 1 (R500). -/
def resetNext (s : State) : Prop :=
  s.inputs.head? = some .hardReset ∨ ∃ v : Word, isWrite s 0x0C v ∧ v.getLsbD 1 = true

end Sys2Proof.Machine
end

