-- ==== Sys2Proof/Certificates/Slice0/Obligations.lean ====
section
/-! DEFINITION. The statements for the provers. Nothing is proved here. Each docstring names the rule it formalises. -/

open Sys2Proof Sys2Proof.Machine

/-! ### Encoding -/

/-- R126, R127: command words written out from the encoding tables decode to their commands, and a few illegal ones decode
to no command. (The spec has one error for every illegal word; the four names they are rejected by are the model's own:
log entry 21.) -/
def Obligations.WrittenWordsDecode : Prop :=
  decode 0x00000000 = .ok .nop ∧ decode 0x00000004 = .ok .modpow ∧ decode 0x00000011 = .ok .gostEcbDec ∧
  decode 0x00000312 = .ok (.gostCfbEnc true true) ∧ decode 0x00000113 = .ok (.gostCfbDec true) ∧
  decode 0x00000214 = .ok (.gostOfbEnc false true) ∧ decode 0x00000020 = .ok .permEnc ∧
  decode 0x00000030 = .ok .rngFill ∧
  decode 0x00000313 = .error .flagNotAllowed ∧ decode 0x00000007 = .error .opcodeUnassigned ∧
  decode 0x00000412 = .error .reservedFlagSet ∧ decode 0x80000030 = .error .reservedHalfSet

/-- R120 to R127: the decoder reads exactly the encoder's word for a command, so no bit of a word is dropped and every
command has one word. -/
def Obligations.DecodeIsInverseOfEncode : Prop :=
  ∀ (w : Word) (i : Instr), decode w = .ok i ↔ w = encode i

/-- R120 to R127: the decoder accepts a word exactly when its opcode is assigned, its flags are allowed and its reserved
bits are 0. -/
def Obligations.DecodedWordsAreTheLegalOnes : Prop :=
  ∀ w : Word, (∃ i, decode w = .ok i) ↔
    (w.extractLsb' 0 8).toNat ∈ [0x00, 0x01, 0x02, 0x03, 0x04, 0x05, 0x06, 0x10, 0x11, 0x12, 0x13, 0x14, 0x15, 0x20,
      0x21, 0x30] ∧
    (w.getLsbD 8 = true → (w.extractLsb' 0 8).toNat ∈ [0x12, 0x13, 0x14, 0x15]) ∧
    (w.getLsbD 9 = true → (w.extractLsb' 0 8).toNat ∈ [0x12, 0x14]) ∧
    w.extractLsb' 10 6 = 0 ∧ w.extractLsb' 16 16 = 0

/-- R128: a command whose word is illegal (opcode unassigned, a flag not allowed, FRSV or RSV not 0) completes with
ILLEGAL_COMMAND, whatever its descriptors, and changes no DMEM byte.
(When the engine moves is the model's own `engineTurn`: log entry 3.) -/
def Obligations.IllegalWordCompletesWithItsError : Prop :=
  ∀ s : State, engineTurn s = true →
    ((s.lcmd.extractLsb' 0 8).toNat ∉ [0x00, 0x01, 0x02, 0x03, 0x04, 0x05, 0x06, 0x10, 0x11, 0x12, 0x13, 0x14, 0x15,
        0x20, 0x21, 0x30] ∨
      (s.lcmd.getLsbD 8 = true ∧ (s.lcmd.extractLsb' 0 8).toNat ∉ [0x12, 0x13, 0x14, 0x15]) ∨
      (s.lcmd.getLsbD 9 = true ∧ (s.lcmd.extractLsb' 0 8).toNat ∉ [0x12, 0x14]) ∨
      s.lcmd.extractLsb' 10 6 ≠ 0 ∨ s.lcmd.extractLsb' 16 16 ≠ 0) →
    ∃ t : State, step s = .next t ∧ t.busy = false ∧ t.done = true ∧ t.err = true ∧ t.errcode = 0x01 ∧
      t.reslen = 0 ∧ t.dmem = s.dmem ∧ Kept s t

/-! ### The step -/

/-- R30, R51, R408: when a command is in progress and the engine moves next, the step is exec of the command its latched
word decodes to, in that same state. -/
def Obligations.StepRunsTheDecodedCommand : Prop :=
  ∀ (s : State) (i : Instr), s.busy = true → (s.wait = 0 ∨ s.inputs = []) → decode s.lcmd = .ok i →
    step s = exec i s

/-- R81, R97, R503: when the engine does not move, the step handles the host's oldest input and no other, and an idle
block with no input stays as it is. (`inputs` and `wait` are the model's own fields: log entries 3 and 4.) -/
def Obligations.StepTakesTheOldestInput : Prop :=
  (∀ (s : State) (x : Input) (rest : List Input), s.inputs = x :: rest → (s.busy = false ∨ s.wait ≠ 0) →
    step s = .next (hostInput x { s with inputs := rest, wait := s.wait - 1 })) ∧
  (∀ s : State, s.busy = false → s.inputs = [] → step s = .next s)

/-! ### Every command -/

/-- R400: every command, legal or not in its operands, completes: exec answers a next state with BUSY = 0 and DONE = 1, in
which ERR = 1 exactly when ERRCODE is not 0, and CMD, ARG and the rest of the registers are kept. -/
def Obligations.EveryCommandCompletes : Prop :=
  ∀ (i : Instr) (s : State), ∃ t : State, exec i s = .next t ∧ t.busy = false ∧ t.done = true ∧
    (t.err = true ↔ t.errcode ≠ 0) ∧ Kept s t

/-- R96: a command that ends with an error writes no DMEM byte, sets RESLEN to 0, and its nonzero code is one of those of
R403. -/
def Obligations.FailedCommandWritesNoMemory : Prop :=
  ∀ (i : Instr) (s t : State), exec i s = .next t → t.err = true →
    (∀ a : Nat, t.dmem.get? a = s.dmem.get? a) ∧ t.reslen = 0 ∧ t.errcode ≠ 0 ∧ t.errcode ∈ legalErrcodes

/-- R95, the frame of every command: a DMEM byte outside the first RESLEN bytes of the output region and, for a command
that generates its IV, outside the 8 bytes of the IV region, is what it was. -/
def Obligations.CommandsWriteOnlyTheirOutput : Prop :=
  ∀ (i : Instr) (s t : State), exec i s = .next t →
    ∀ a : Nat, ¬(offset s .out ≤ a ∧ a < offset s .out + t.reslen.toNat) →
      ¬(generatesIv i = true ∧ offset s .m ≤ a ∧ a < offset s .m + 8) → t.dmem.get? a = s.dmem.get? a

/-- R93, R404: a command ends with RANGE_ERROR exactly when some descriptor it uses is not valid; a descriptor it does not
use never matters, and no other check comes first. -/
def Obligations.RangeErrorExactlyForUsedDescriptors : Prop :=
  ∀ (i : Instr) (s t : State), exec i s = .next t → (t.errcode = 0x02 ↔ ∃ p ∈ usedPairs i, ¬inRange s p)

/-- R55, R11: the outcome of a command depends only on its latched operands and memory, the parameters and the draws: two
states that agree on these get the same ERR, ERRCODE and RESLEN, and their memories agree after the command wherever they
agreed before.
(The draws are those of the model's own counter `event`: log entries 1 and 25.) -/
def Obligations.OutcomeDependsOnLatchAndDrawsOnly : Prop :=
  ∀ (i : Instr) (s s' t t' : State), s.larg = s'.larg → s.lmem = s'.lmem → s.cfg = s'.cfg → s.event = s'.event →
    exec i s = .next t → exec i s' = .next t' →
    t.err = t'.err ∧ t.errcode = t'.errcode ∧ t.reslen = t'.reslen ∧
    ∀ a : Nat, s.dmem.get? a = s'.dmem.get? a → t.dmem.get? a = t'.dmem.get? a

/-! ### The commands, one by one -/

/-- R330: NOP completes with the empty result and uses no descriptor. -/
def Obligations.NopFollowsItsRule : Prop :=
  decode 0x00000000 = .ok .nop ∧ ∀ s : State, Commits .nop s [] none

/-- R204: MUL. -/
def Obligations.MulFollowsItsRule : Prop :=
  decode 0x00000001 = .ok .mul ∧ ∀ s : State,
    (¬Ranged .mul s → Rejects .mul s 0x02) ∧
    (Ranged .mul s → (s.cfg.maxBytes < length s .a ∨ s.cfg.maxBytes < length s .b) → Rejects .mul s 0x04) ∧
    (Ranged .mul s → length s .a ≤ s.cfg.maxBytes → length s .b ≤ s.cfg.maxBytes →
      length s .out < length s .a + length s .b → Rejects .mul s 0x03) ∧
    (Ranged .mul s → length s .a ≤ s.cfg.maxBytes → length s .b ≤ s.cfg.maxBytes →
      length s .a + length s .b ≤ length s .out →
      ∃ r : List Byte, r.length = length s .a + length s .b ∧ be r = bigint s .a * bigint s .b ∧ Commits .mul s r none)

/-- R205: MOD. -/
def Obligations.ModFollowsItsRule : Prop :=
  decode 0x00000002 = .ok .mod ∧ ∀ s : State,
    (¬Ranged .mod s → Rejects .mod s 0x02) ∧
    (Ranged .mod s → (2 * s.cfg.maxBytes < length s .a ∨ s.cfg.maxBytes < length s .m) → Rejects .mod s 0x04) ∧
    (Ranged .mod s → length s .a ≤ 2 * s.cfg.maxBytes → length s .m ≤ s.cfg.maxBytes →
      (bigint s .m = 0 → Rejects .mod s 0x05) ∧
      (bigint s .m ≠ 0 → length s .out < length s .m → Rejects .mod s 0x03) ∧
      (bigint s .m ≠ 0 → length s .m ≤ length s .out →
        ∃ r : List Byte, r.length = length s .m ∧ be r = bigint s .a % bigint s .m ∧ Commits .mod s r none))

/-- R206: MULMOD. -/
def Obligations.MulmodFollowsItsRule : Prop :=
  decode 0x00000003 = .ok .mulmod ∧ ∀ s : State,
    (¬Ranged .mulmod s → Rejects .mulmod s 0x02) ∧
    (Ranged .mulmod s →
      (s.cfg.maxBytes < length s .a ∨ s.cfg.maxBytes < length s .b ∨ s.cfg.maxBytes < length s .m) →
      Rejects .mulmod s 0x04) ∧
    (Ranged .mulmod s → length s .a ≤ s.cfg.maxBytes → length s .b ≤ s.cfg.maxBytes → length s .m ≤ s.cfg.maxBytes →
      (bigint s .m = 0 → Rejects .mulmod s 0x05) ∧
      (bigint s .m ≠ 0 → length s .out < length s .m → Rejects .mulmod s 0x03) ∧
      (bigint s .m ≠ 0 → length s .m ≤ length s .out →
        ∃ r : List Byte, r.length = length s .m ∧ be r = (bigint s .a * bigint s .b) % bigint s .m ∧
          Commits .mulmod s r none))

/-- R207: MODPOW, with `a ** 0 = 1` for every `a` (R8). -/
def Obligations.ModpowFollowsItsRule : Prop :=
  decode 0x00000004 = .ok .modpow ∧ ∀ s : State,
    (¬Ranged .modpow s → Rejects .modpow s 0x02) ∧
    (Ranged .modpow s →
      (s.cfg.maxBytes < length s .a ∨ s.cfg.maxBytes < length s .b ∨ s.cfg.maxBytes < length s .m) →
      Rejects .modpow s 0x04) ∧
    (Ranged .modpow s → length s .a ≤ s.cfg.maxBytes → length s .b ≤ s.cfg.maxBytes → length s .m ≤ s.cfg.maxBytes →
      (bigint s .m = 0 → Rejects .modpow s 0x05) ∧
      (bigint s .m ≠ 0 → length s .out < length s .m → Rejects .modpow s 0x03) ∧
      (bigint s .m ≠ 0 → length s .m ≤ length s .out →
        ∃ r : List Byte, r.length = length s .m ∧ be r = bigint s .a ^ bigint s .b % bigint s .m ∧
          Commits .modpow s r none))

/-- R209: RSA_ENC: an input not below the modulus raises ENCODING_ERROR. -/
def Obligations.RsaEncFollowsItsRule : Prop :=
  decode 0x00000005 = .ok .rsaEnc ∧ ∀ s : State,
    (¬Ranged .rsaEnc s → Rejects .rsaEnc s 0x02) ∧
    (Ranged .rsaEnc s →
      (s.cfg.maxBytes < length s .a ∨ s.cfg.maxBytes < length s .b ∨ s.cfg.maxBytes < length s .m) →
      Rejects .rsaEnc s 0x04) ∧
    (Ranged .rsaEnc s → length s .a ≤ s.cfg.maxBytes → length s .b ≤ s.cfg.maxBytes → length s .m ≤ s.cfg.maxBytes →
      (bigint s .m = 0 → Rejects .rsaEnc s 0x05) ∧
      (bigint s .m ≠ 0 → bigint s .m ≤ bigint s .a → Rejects .rsaEnc s 0x15) ∧
      (bigint s .a < bigint s .m → length s .out < length s .m → Rejects .rsaEnc s 0x03) ∧
      (bigint s .a < bigint s .m → length s .m ≤ length s .out →
        ∃ r : List Byte, r.length = length s .m ∧ be r = bigint s .a ^ bigint s .b % bigint s .m ∧
          Commits .rsaEnc s r none))

/-- R210: RSA_DEC: an input not below the modulus raises DECRYPTION_ERROR. -/
def Obligations.RsaDecFollowsItsRule : Prop :=
  decode 0x00000006 = .ok .rsaDec ∧ ∀ s : State,
    (¬Ranged .rsaDec s → Rejects .rsaDec s 0x02) ∧
    (Ranged .rsaDec s →
      (s.cfg.maxBytes < length s .a ∨ s.cfg.maxBytes < length s .b ∨ s.cfg.maxBytes < length s .m) →
      Rejects .rsaDec s 0x04) ∧
    (Ranged .rsaDec s → length s .a ≤ s.cfg.maxBytes → length s .b ≤ s.cfg.maxBytes → length s .m ≤ s.cfg.maxBytes →
      (bigint s .m = 0 → Rejects .rsaDec s 0x05) ∧
      (bigint s .m ≠ 0 → bigint s .m ≤ bigint s .a → Rejects .rsaDec s 0x17) ∧
      (bigint s .a < bigint s .m → length s .out < length s .m → Rejects .rsaDec s 0x03) ∧
      (bigint s .a < bigint s .m → length s .m ≤ length s .out →
        ∃ r : List Byte, r.length = length s .m ∧ be r = bigint s .a ^ bigint s .b % bigint s .m ∧
          Commits .rsaDec s r none))

/-- R259: GOST_ECB_ENC: each 8-byte block of the result is E_K of the data's block. -/
def Obligations.GostEcbEncFollowsItsRule : Prop :=
  decode 0x00000010 = .ok .gostEcbEnc ∧ ∀ s : State,
    (¬Ranged .gostEcbEnc s → Rejects .gostEcbEnc s 0x02) ∧
    (Ranged .gostEcbEnc s → length s .b ≠ 32 → Rejects .gostEcbEnc s 0x11) ∧
    (Ranged .gostEcbEnc s → length s .b = 32 → length s .a % 8 ≠ 0 → Rejects .gostEcbEnc s 0x10) ∧
    (Ranged .gostEcbEnc s → length s .b = 32 → length s .a % 8 = 0 → length s .out < length s .a →
      Rejects .gostEcbEnc s 0x03) ∧
    (Ranged .gostEcbEnc s → length s .b = 32 → length s .a % 8 = 0 → length s .a ≤ length s .out →
      ∃ r : List Byte, r.length = length s .a ∧
        (∀ j < length s .a / 8, block r j = encryptBlock s.cfg.sbox (operand s .b) (block (operand s .a) j)) ∧
        Commits .gostEcbEnc s r none)

/-- R260: GOST_ECB_DEC: each 8-byte block of the result is D_K of the data's block. -/
def Obligations.GostEcbDecFollowsItsRule : Prop :=
  decode 0x00000011 = .ok .gostEcbDec ∧ ∀ s : State,
    (¬Ranged .gostEcbDec s → Rejects .gostEcbDec s 0x02) ∧
    (Ranged .gostEcbDec s → length s .b ≠ 32 → Rejects .gostEcbDec s 0x11) ∧
    (Ranged .gostEcbDec s → length s .b = 32 → length s .a % 8 ≠ 0 → Rejects .gostEcbDec s 0x10) ∧
    (Ranged .gostEcbDec s → length s .b = 32 → length s .a % 8 = 0 → length s .out < length s .a →
      Rejects .gostEcbDec s 0x03) ∧
    (Ranged .gostEcbDec s → length s .b = 32 → length s .a % 8 = 0 → length s .a ≤ length s .out →
      ∃ r : List Byte, r.length = length s .a ∧
        (∀ j < length s .a / 8, block r j = decryptBlock s.cfg.sbox (operand s .b) (block (operand s .a) j)) ∧
        Commits .gostEcbDec s r none)

/-- R264: GOST_CFB_ENC, with or without ENV and IVGEN: keystream block `j` is E_K of the IV for `j = 0` and of ciphertext
block `j-1` after it; the envelope puts the IV in front; a generated IV is any 8 bytes and is written back. -/
def Obligations.GostCfbEncFollowsItsRule : Prop :=
  (decode 0x00000012 = .ok (.gostCfbEnc false false) ∧ decode 0x00000112 = .ok (.gostCfbEnc true false) ∧
    decode 0x00000212 = .ok (.gostCfbEnc false true) ∧ decode 0x00000312 = .ok (.gostCfbEnc true true)) ∧
  ∀ (env ivgen : Bool) (s : State),
    (¬Ranged (.gostCfbEnc env ivgen) s → Rejects (.gostCfbEnc env ivgen) s 0x02) ∧
    (Ranged (.gostCfbEnc env ivgen) s → length s .b ≠ 32 → Rejects (.gostCfbEnc env ivgen) s 0x11) ∧
    (Ranged (.gostCfbEnc env ivgen) s → length s .b = 32 → length s .m ≠ 8 → Rejects (.gostCfbEnc env ivgen) s 0x12) ∧
    (Ranged (.gostCfbEnc env ivgen) s → length s .b = 32 → length s .m = 8 →
      length s .out < length s .a + (if env then 8 else 0) → Rejects (.gostCfbEnc env ivgen) s 0x03) ∧
    (Ranged (.gostCfbEnc env ivgen) s → length s .b = 32 → length s .m = 8 →
      length s .a + (if env then 8 else 0) ≤ length s .out →
      ∃ iv c : List Byte, iv.length = 8 ∧ (ivgen = false → iv = operand s .m) ∧ c.length = length s .a ∧
        (∀ j < (length s .a + 7) / 8, block c j = xorBytes (block (operand s .a) j)
          (encryptBlock s.cfg.sbox (operand s .b) (if j = 0 then iv else block c (j - 1)))) ∧
        Commits (.gostCfbEnc env ivgen) s (if env then iv ++ c else c) (if ivgen then some iv else none))

/-- R266: GOST_OFB_ENC, with or without ENV and IVGEN: keystream block `j` is E_K applied `j+1` times to the IV. -/
def Obligations.GostOfbEncFollowsItsRule : Prop :=
  (decode 0x00000014 = .ok (.gostOfbEnc false false) ∧ decode 0x00000114 = .ok (.gostOfbEnc true false) ∧
    decode 0x00000214 = .ok (.gostOfbEnc false true) ∧ decode 0x00000314 = .ok (.gostOfbEnc true true)) ∧
  ∀ (env ivgen : Bool) (s : State),
    (¬Ranged (.gostOfbEnc env ivgen) s → Rejects (.gostOfbEnc env ivgen) s 0x02) ∧
    (Ranged (.gostOfbEnc env ivgen) s → length s .b ≠ 32 → Rejects (.gostOfbEnc env ivgen) s 0x11) ∧
    (Ranged (.gostOfbEnc env ivgen) s → length s .b = 32 → length s .m ≠ 8 → Rejects (.gostOfbEnc env ivgen) s 0x12) ∧
    (Ranged (.gostOfbEnc env ivgen) s → length s .b = 32 → length s .m = 8 →
      length s .out < length s .a + (if env then 8 else 0) → Rejects (.gostOfbEnc env ivgen) s 0x03) ∧
    (Ranged (.gostOfbEnc env ivgen) s → length s .b = 32 → length s .m = 8 →
      length s .a + (if env then 8 else 0) ≤ length s .out →
      ∃ iv c : List Byte, iv.length = 8 ∧ (ivgen = false → iv = operand s .m) ∧ c.length = length s .a ∧
        (∀ j < (length s .a + 7) / 8, block c j = xorBytes (block (operand s .a) j)
          ((encryptBlock s.cfg.sbox (operand s .b))^[j + 1] iv)) ∧
        Commits (.gostOfbEnc env ivgen) s (if env then iv ++ c else c) (if ivgen then some iv else none))

/-- R265: GOST_CFB_DEC. With ENV = 1 the IV is the first 8 bytes of the input and the IV pair is not used; with ENV = 0
it is read from the IV pair. The feedback is the ciphertext block, and E_K (not D_K) makes the keystream. -/
def Obligations.GostCfbDecFollowsItsRule : Prop :=
  (decode 0x00000013 = .ok (.gostCfbDec false) ∧ decode 0x00000113 = .ok (.gostCfbDec true)) ∧
  ∀ (env : Bool) (s : State),
    (¬Ranged (.gostCfbDec env) s → Rejects (.gostCfbDec env) s 0x02) ∧
    (Ranged (.gostCfbDec env) s → length s .b ≠ 32 → Rejects (.gostCfbDec env) s 0x11) ∧
    (Ranged (.gostCfbDec env) s → length s .b = 32 → env = true → length s .a < 8 →
      Rejects (.gostCfbDec env) s 0x10) ∧
    (Ranged (.gostCfbDec env) s → length s .b = 32 → env = false → length s .m ≠ 8 →
      Rejects (.gostCfbDec env) s 0x12) ∧
    (Ranged (.gostCfbDec env) s → length s .b = 32 → (if env then 8 ≤ length s .a else length s .m = 8) →
      ∀ iv c : List Byte, iv = (if env then (operand s .a).take 8 else operand s .m) →
        c = (if env then (operand s .a).drop 8 else operand s .a) →
        (length s .out < c.length → Rejects (.gostCfbDec env) s 0x03) ∧
        (c.length ≤ length s .out → ∃ p : List Byte, p.length = c.length ∧
          (∀ j < (c.length + 7) / 8, block p j = xorBytes (block c j)
            (encryptBlock s.cfg.sbox (operand s .b) (if j = 0 then iv else block c (j - 1)))) ∧
          Commits (.gostCfbDec env) s p none))

/-- R267: GOST_OFB_DEC. -/
def Obligations.GostOfbDecFollowsItsRule : Prop :=
  (decode 0x00000015 = .ok (.gostOfbDec false) ∧ decode 0x00000115 = .ok (.gostOfbDec true)) ∧
  ∀ (env : Bool) (s : State),
    (¬Ranged (.gostOfbDec env) s → Rejects (.gostOfbDec env) s 0x02) ∧
    (Ranged (.gostOfbDec env) s → length s .b ≠ 32 → Rejects (.gostOfbDec env) s 0x11) ∧
    (Ranged (.gostOfbDec env) s → length s .b = 32 → env = true → length s .a < 8 →
      Rejects (.gostOfbDec env) s 0x10) ∧
    (Ranged (.gostOfbDec env) s → length s .b = 32 → env = false → length s .m ≠ 8 →
      Rejects (.gostOfbDec env) s 0x12) ∧
    (Ranged (.gostOfbDec env) s → length s .b = 32 → (if env then 8 ≤ length s .a else length s .m = 8) →
      ∀ iv c : List Byte, iv = (if env then (operand s .a).take 8 else operand s .m) →
        c = (if env then (operand s .a).drop 8 else operand s .a) →
        (length s .out < c.length → Rejects (.gostOfbDec env) s 0x03) ∧
        (c.length ≤ length s .out → ∃ p : List Byte, p.length = c.length ∧
          (∀ j < (c.length + 7) / 8, block p j = xorBytes (block c j)
            ((encryptBlock s.cfg.sbox (operand s .b))^[j + 1] iv)) ∧
          Commits (.gostOfbDec env) s p none))

/-- R304: PERM_ENC: the data padded with `p = N - (L mod N)` bytes of value `p`, the byte at position `i` of each block
moved to position `π(i)`. -/
def Obligations.PermEncFollowsItsRule : Prop :=
  decode 0x00000020 = .ok .permEnc ∧ ∀ s : State,
    (¬Ranged .permEnc s → Rejects .permEnc s 0x02) ∧
    (Ranged .permEnc s → ¬KeyValid (operand s .b) → Rejects .permEnc s 0x13) ∧
    (Ranged .permEnc s → KeyValid (operand s .b) → ∀ p : Nat, p = length s .b - length s .a % length s .b →
      (length s .out < length s .a + p → Rejects .permEnc s 0x03) ∧
      (length s .a + p ≤ length s .out →
        ∃ r : List Byte, r.length = length s .a + p ∧
          (∀ k i : Nat, i < length s .b → k * length s .b + i < length s .a + p →
            r[k * length s .b + permIndex (operand s .b) i]? =
              (operand s .a ++ List.replicate p (BitVec.ofNat 8 p))[k * length s .b + i]?) ∧
          Commits .permEnc s r none))

/-- R306: PERM_DEC: a length that is 0 or no multiple of `N` fails; otherwise position `i` of each block takes the byte at
position `π(i)`, and the padding is checked (R305) and stripped. -/
def Obligations.PermDecFollowsItsRule : Prop :=
  decode 0x00000021 = .ok .permDec ∧ ∀ s : State,
    (¬Ranged .permDec s → Rejects .permDec s 0x02) ∧
    (Ranged .permDec s → ¬KeyValid (operand s .b) → Rejects .permDec s 0x13) ∧
    (Ranged .permDec s → KeyValid (operand s .b) → (length s .a = 0 ∨ length s .a % length s .b ≠ 0) →
      Rejects .permDec s 0x17) ∧
    (Ranged .permDec s → KeyValid (operand s .b) → length s .a ≠ 0 → length s .a % length s .b = 0 →
      ∃ q : List Byte, q.length = length s .a ∧
        (∀ k i : Nat, i < length s .b → k * length s .b + i < length s .a →
          q[k * length s .b + i]? = (operand s .a)[k * length s .b + permIndex (operand s .b) i]?) ∧
        (¬PaddingValid q (length s .b) → Rejects .permDec s 0x17) ∧
        (PaddingValid q (length s .b) → length s .out < length s .a - lastByte q → Rejects .permDec s 0x03) ∧
        (PaddingValid q (length s .b) → length s .a - lastByte q ≤ length s .out →
          Commits .permDec s (q.take (length s .a - lastByte q)) none))

/-- R331: RNG_FILL writes ARG7 drawn bytes; which bytes is not said, since a draw is under no law (R332). -/
def Obligations.RngFillFollowsItsRule : Prop :=
  decode 0x00000030 = .ok .rngFill ∧ ∀ s : State,
    (¬Ranged .rngFill s → Rejects .rngFill s 0x02) ∧
    (Ranged .rngFill s → ∃ r : List Byte, r.length = length s .out ∧ Commits .rngFill s r none)

/-! ### The functions behind the commands -/

/-- R208: square and multiply gives the value of R207. -/
def Obligations.ModPowIsThePowerModulo : Prop :=
  ∀ a e m : Nat, 0 < m → modPow a e m = a ^ e % m

/-- R209, R210, R212: RSA_DEC undoes RSA_ENC for a valid key: distinct primes `p`, `q`, `n = p*q`,
`e*d ≡ 1 mod lcm(p-1, q-1)`, and an input below `n`. `t` is the state after the encryption, whose committed bytes are `y`. -/
def Obligations.RsaRoundTrip : Prop :=
  ∀ (s t s' : State) (p q e d : Nat) (y : List Byte), p.Prime → q.Prime → p ≠ q →
    e * d % Nat.lcm (p - 1) (q - 1) = 1 % Nat.lcm (p - 1) (q - 1) →
    bigint s .m = p * q → bigint s .b = e → exec .rsaEnc s = .next t → t.err = false →
    y.length = t.reslen.toNat → (∀ j < y.length, t.dmem.get? (offset s .out + j) = y[j]?) →
    Ranged .rsaDec s' → operand s' .a = y → bigint s' .b = d → operand s' .m = operand s .m →
    s'.cfg = s.cfg → length s' .b ≤ s'.cfg.maxBytes → length s' .m ≤ length s' .out →
    ∃ r : List Byte, r.length = length s' .m ∧ be r = bigint s .a ∧ Commits .rsaDec s' r none

/-- R252, R253, R255: the check values of the default substitution table. -/
def Obligations.GostCheckValues : Prop :=
  subst Config.defaultSbox 0xfdb97531 = 0x2a196f34 ∧ subst Config.defaultSbox 0x2a196f34 = 0xebd9f03a ∧
  roundG Config.defaultSbox 0x87654321 0xfedcba98 = 0xfdcbc20c

/-- R257: for every table, key and block, D_K and E_K undo each other; with the all-zero key they are one function, and
with the default table it maps 0 to 0x78b6bd4a81726659. -/
def Obligations.GostDecryptionInvertsEncryption : Prop :=
  (∀ (sbox : Sbox) (key : List Byte) (x : BitVec 64),
    feistel sbox (decSchedule key) (feistel sbox (encSchedule key) x) = x ∧
    feistel sbox (encSchedule key) (feistel sbox (decSchedule key) x) = x) ∧
  encSchedule (List.replicate 32 0) = decSchedule (List.replicate 32 0) ∧
  feistel Config.defaultSbox (encSchedule (List.replicate 32 0)) 0 = 0x78b6bd4a81726659

/-- R260: GOST_ECB_DEC undoes GOST_ECB_ENC on every string of whole blocks. -/
def Obligations.GostEcbRoundTrip : Prop :=
  ∀ (sbox : Sbox) (key x : List Byte), x.length % 8 = 0 →
    mapBlocks (decryptBlock sbox key) 8 (x.length / 8) (mapBlocks (encryptBlock sbox key) 8 (x.length / 8) x) = x

/-- R265, R269: cipher feedback decrypts what it encrypted, for data of every length, and keeps the length. -/
def Obligations.GostCfbRoundTrip : Prop :=
  ∀ (sbox : Sbox) (key iv x : List Byte),
    cfb sbox false key iv (cfb sbox true key iv x) = x ∧ (cfb sbox true key iv x).length = x.length

/-- R263, R269: output feedback is its own inverse, for data of every length, and keeps the length. -/
def Obligations.GostOfbRoundTrip : Prop :=
  ∀ (sbox : Sbox) (key iv x : List Byte),
    ofb sbox key iv (ofb sbox key iv x) = x ∧ (ofb sbox key iv x).length = x.length

/-- R307: for every valid key and data string, what PERM_ENC returns has a whole number of blocks, passes the padding
check after the inverse transposition, and is stripped back to the data. -/
def Obligations.PermRoundTrip : Prop :=
  ∀ kk x : List Byte, KeyValid kk →
    (permEncrypt kk x).length ≠ 0 ∧ (permEncrypt kk x).length % kk.length = 0 ∧
    PaddingValid (permInvert kk (permEncrypt kk x)) kk.length ∧
    (permInvert kk (permEncrypt kk x)).take
      ((permEncrypt kk x).length - lastByte (permInvert kk (permEncrypt kk x))) = x

/-! ### The host's side -/

/-- R37, R39: a write of CTRL with SRST = 0. START while idle starts the command: BUSY set, DONE, ERR, ERRCODE and RESLEN
cleared, the operands latched. START while BUSY starts nothing and sets WERR. IRQEN takes bit 2 in every case, a write with
START = 0 changes nothing else, and START reads as 0.
(The OKAY response is read from R81: log entry 22.) -/
def Obligations.StartWriteFollowsItsRule : Prop :=
  ∀ (s t : State) (v : Word), v.getLsbD 1 = false → hostInput (w32 0x0C v) s = t →
    t.irqen = v.getLsbD 2 ∧ t.dmem = s.dmem ∧ t.cmd = s.cmd ∧ t.arg = s.arg ∧ t.cfg = s.cfg ∧
    t.responses = .okayWrite :: s.responses ∧ (regRead t .ctrl).getLsbD 0 = false ∧
    (v.getLsbD 0 = true → s.busy = false →
      t.busy = true ∧ t.done = false ∧ t.err = false ∧ t.errcode = 0 ∧ t.reslen = 0 ∧ t.werr = s.werr ∧
      t.lcmd = s.cmd ∧ t.larg = s.arg ∧ t.lmem = s.dmem) ∧
    (v.getLsbD 0 = true → s.busy = true →
      t.werr = true ∧ t.busy = true ∧ t.done = s.done ∧ t.err = s.err ∧ t.errcode = s.errcode ∧ t.reslen = s.reslen ∧
      t.lcmd = s.lcmd ∧ t.larg = s.larg ∧ t.lmem = s.lmem ∧ t.wait = s.wait) ∧
    (v.getLsbD 0 = false →
      t.busy = s.busy ∧ t.done = s.done ∧ t.err = s.err ∧ t.errcode = s.errcode ∧ t.reslen = s.reslen ∧
      t.werr = s.werr ∧ t.lcmd = s.lcmd ∧ t.larg = s.larg ∧ t.lmem = s.lmem ∧ t.wait = s.wait)

/-- R38, R500, R502: a write of CTRL with SRST = 1, whatever its other bits. Every register takes its reset value. While
idle DMEM is unchanged. While BUSY the command is abandoned: the bytes of its output region, and for GOST_CFB_ENC or
GOST_OFB_ENC with IVGEN those of the IV region, become unspecified, and every other byte is unchanged.
(That an illegal word or NOP leaves its output region unspecified too: log entry 10.) -/
def Obligations.SoftResetFollowsItsRule : Prop :=
  ∀ (s t : State) (v : Word), v.getLsbD 1 = true → hostInput (w32 0x0C v) s = t →
    t.busy = false ∧ t.done = false ∧ t.err = false ∧ t.werr = false ∧ t.irqen = false ∧ t.errcode = 0 ∧
    t.reslen = 0 ∧ t.cmd = 0 ∧ (∀ k : Fin 8, t.arg[k] = 0) ∧ t.cfg = s.cfg ∧ irq t = false ∧
    (s.busy = false → t.dmem = s.dmem) ∧
    (s.busy = true → ∀ a : Nat, t.dmem.get? a =
      if (offset s .out ≤ a ∧ a < offset s .out + length s .out) ∨
         (s.lcmd ∈ [0x00000212, 0x00000312, 0x00000214, 0x00000314] ∧ offset s .m ≤ a ∧ a < offset s .m + 8)
      then none else s.dmem.get? a)

/-- R500, R501: the hard reset, at any moment: every register takes its reset value, no command is in progress, irq is 0
and every DMEM byte is unspecified. -/
def Obligations.HardResetFollowsItsRule : Prop :=
  ∀ s t : State, hostInput .hardReset s = t →
    t.busy = false ∧ t.done = false ∧ t.err = false ∧ t.werr = false ∧ t.irqen = false ∧ irq t = false ∧
    t.dmem = [] ∧ t.cfg = s.cfg ∧
    regRead t .hwid = 0x4D580100 ∧ regRead t .ctrl = 0 ∧ regRead t .status = 0 ∧ regRead t .errcode = 0 ∧
    regRead t .reslen = 0 ∧ regRead t .cmd = 0 ∧ ∀ k : Fin 8, regRead t (.arg k) = 0

/-- R33 to R36, R500: the state right after reset: every register reads its reset value of R33's table, every DMEM byte is
unspecified. (The parameters are the defaults of R6; log entry 6.) -/
def Obligations.ResetStateReadsAsTheTable : Prop :=
  regRead State.reset .hwid = 0x4D580100 ∧ regRead State.reset .cfg0 = 16384 ∧ regRead State.reset .cfg1 = 512 ∧
  regRead State.reset .ctrl = 0 ∧ regRead State.reset .status = 0 ∧ regRead State.reset .errcode = 0 ∧
  regRead State.reset .reslen = 0 ∧ regRead State.reset .cmd = 0 ∧ (∀ k : Fin 8, regRead State.reset (.arg k) = 0) ∧
  State.reset.busy = false ∧ irq State.reset = false ∧ ∀ a : Nat, State.reset.dmem.get? a = none

/-- R41, R42, R43, R44, R410: a write of STATUS clears DONE, ERR and WERR where its bits 1, 2 and 3 are set, and nothing
else; a read returns the four flags and zeros.
(The OKAY response: log entry 22.) -/
def Obligations.StatusWriteClearsItsBits : Prop :=
  ∀ (s : State) (v : Word),
    hostInput (w32 0x10 v) s =
      { s with
        done := s.done && !v.getLsbD 1
        err := s.err && !v.getLsbD 2
        werr := s.werr && !v.getLsbD 3
        responses := .okayWrite :: s.responses } ∧
    (regRead s .status).toNat = 8 * s.werr.toNat + 4 * s.err.toNat + 2 * s.done.toNat + s.busy.toNat

/-- R47, R48, R510: a write of CMD or of ARGk stores the whole value while idle; while BUSY it is dropped and sets WERR.
(The OKAY response is read from R81: log entry 22.) -/
def Obligations.CommandRegisterWrites : Prop :=
  ∀ (s : State) (v : Word) (k : Fin 8),
    hostInput (w32 0x1C v) s =
      (if s.busy then { s with werr := true, responses := .okayWrite :: s.responses }
       else { s with cmd := v, responses := .okayWrite :: s.responses }) ∧
    hostInput (w32 (BitVec.ofNat 17 (0x20 + 4 * k.val)) v) s =
      (if s.busy then { s with werr := true, responses := .okayWrite :: s.responses }
       else { s with arg := s.arg.set k v, responses := .okayWrite :: s.responses })

/-- R34, R35, R36, R45, R46, R49: a write of a read-only register or of a reserved offset is ignored and does not set
WERR, and a reserved offset reads 0.
(The OKAY response is read from R81 and R406: log entry 22.) -/
def Obligations.ReadOnlyRegistersIgnoreWrites : Prop :=
  ∀ (s : State) (v : Word) (a : WindowOffset), a.toNat % 4 = 0 →
    (a.toNat ∈ [0x00, 0x04, 0x08, 0x14, 0x18] ∨ (0x40 ≤ a.toNat ∧ a.toNat ≤ 0xFC)) →
    hostInput (w32 a v) s = { s with responses := .okayWrite :: s.responses } ∧
    (0x40 ≤ a.toNat → hostInput (r32 a) s = { s with responses := .okayRead 0 :: s.responses })

/-- R86, R90: a host write of 1, 2 or 4 bytes, aligned and inside DMEM, while idle: DMEM byte `o+i` takes bits
`8i+7 .. 8i` of the value, every other byte and every register is unchanged, and reading it back returns the value's
bytes.
(A 1- or 2-byte value stands in the low bytes of 32 bits: log entry 17.) -/
def Obligations.DmemWriteThenReadWhileIdle : Prop :=
  ∀ (s t : State) (a : WindowOffset) (w : Width) (v : Word), s.busy = false → 0x10000 ≤ a.toNat →
    (a.toNat - 0x10000) % w.bytes = 0 → a.toNat - 0x10000 + w.bytes ≤ s.cfg.dmemBytes →
    hostInput (.bus ⟨a, w, .write v⟩) s = t →
    (∀ i < w.bytes, t.dmem.get? (a.toNat - 0x10000 + i) = some (v.extractLsb' (8 * i) 8)) ∧
    (∀ x : Nat, ¬(a.toNat - 0x10000 ≤ x ∧ x < a.toNat - 0x10000 + w.bytes) → t.dmem.get? x = s.dmem.get? x) ∧
    t.busy = s.busy ∧ t.done = s.done ∧ t.err = s.err ∧ t.werr = s.werr ∧ t.irqen = s.irqen ∧
    t.errcode = s.errcode ∧ t.reslen = s.reslen ∧ t.cmd = s.cmd ∧ t.arg = s.arg ∧
    t.responses = .okayWrite :: s.responses ∧
    (hostInput (.bus ⟨a, w, .read⟩) t).responses =
      .okayRead (BitVec.ofNat 32 (v.toNat % 2 ^ (8 * w.bytes))) :: t.responses

/-- R88: the mixed-width consequence: after a 32-bit host write of 0x01020304 at DMEM offset 0, DMEM[0..4) is 04 03 02 01
and a 4-byte big integer there has the value 0x04030201. -/
def Obligations.MixedWidthConsequence : Prop :=
  ∀ s t : State, s.busy = false → 4 ≤ s.cfg.dmemBytes → hostInput (w32 0x10000 0x01020304) s = t →
    t.dmem.get? 0 = some 0x04 ∧ t.dmem.get? 1 = some 0x03 ∧ t.dmem.get? 2 = some 0x02 ∧ t.dmem.get? 3 = some 0x01 ∧
    ∀ event slot : Nat, be (t.dmem.read event slot 0 4) = 0x04030201

/-- R43, R90, R407, R510: while BUSY a DMEM write inside the window is dropped: it gets an OKAY response, sets WERR, and
changes nothing else. -/
def Obligations.DmemWriteWhileBusyIsDropped : Prop :=
  ∀ (s : State) (a : WindowOffset) (w : Width) (v : Word), s.busy = true → 0x10000 ≤ a.toNat →
    (a.toNat - 0x10000) % w.bytes = 0 → a.toNat - 0x10000 + w.bytes ≤ s.cfg.dmemBytes →
    hostInput (.bus ⟨a, w, .write v⟩) s = { s with werr := true, responses := .okayWrite :: s.responses }

/-- R82, R84, R85, R406: an access of the register window that is not 32 bits wide and aligned, an access to an unmapped
range, a misaligned DMEM access and one past the end of DMEM get an ERROR response and have no other effect.
(That such a DMEM write while BUSY sets no WERR is the model's reading: log entry 9.) -/
def Obligations.BadAccessesGetErrorAndNoEffect : Prop :=
  ∀ (s : State) (x : Transaction),
    ((x.addr.toNat < 0x100 ∧ (x.width.bytes ≠ 4 ∨ x.addr.toNat % 4 ≠ 0)) ∨
     (∃ i < x.width.bytes, 0x100 ≤ x.addr.toNat + i ∧ x.addr.toNat + i < 0x10000) ∨
     (∃ i < x.width.bytes, 0x10000 + s.cfg.dmemBytes ≤ x.addr.toNat + i) ∨
     (0x10000 ≤ x.addr.toNat ∧ (x.addr.toNat - 0x10000) % x.width.bytes ≠ 0)) →
    hostInput (.bus x) s = { s with responses := .error :: s.responses }

/-- R91: a read has no side effect: whatever it addresses, it changes no register and no DMEM byte. (The response and the
count of draws are the model's own fields.) -/
def Obligations.ReadsHaveNoSideEffect : Prop :=
  ∀ (s : State) (a : WindowOffset) (w : Width), ∃ (r : Response) (n : Nat),
    hostInput (.bus ⟨a, w, .read⟩) s = { s with responses := r :: s.responses, event := n } ∧ r ≠ .okayWrite

/-- Log entry 11, the model's reading of R89 and R511: a DMEM read while BUSY is a draw, so its response does not depend on
DMEM, and reading does not change DMEM. (The rules only say that such a read returns any value: a block that returns the
stored bytes conforms to them too. The draws are those of the model's own counter `event`: log entries 1 and 25.) -/
def Obligations.BusyDmemReadsAreDraws : Prop :=
  ∀ (s s' : State) (a : WindowOffset) (w : Width), s.busy = true → s'.busy = true → s.cfg = s'.cfg →
    s.event = s'.event → 0x10000 ≤ a.toNat →
    (hostInput (.bus ⟨a, w, .read⟩) s).responses.head? = (hostInput (.bus ⟨a, w, .read⟩) s').responses.head? ∧
    (hostInput (.bus ⟨a, w, .read⟩) s).dmem = s.dmem

/-- R34, R35, R36, R39, R45, R46, R47, R48: a 32-bit read of each register's offset returns the register, with reserved
bits 0. -/
def Obligations.RegisterReadsReturnTheRegister : Prop :=
  ∀ s : State, s.cfg.wf = true →
    (∀ (a : WindowOffset) (v : Word),
      (a, v) ∈ [((0x00 : WindowOffset), (0x4D580100 : Word)), (0x04, BitVec.ofNat 32 s.cfg.dmemBytes),
        (0x08, BitVec.ofNat 32 s.cfg.maxBytes), (0x0C, if s.irqen then 4 else 0), (0x10, statusWord s),
        (0x14, BitVec.ofNat 32 s.errcode.toNat), (0x18, s.reslen), (0x1C, s.cmd), (0x20, s.arg[0]), (0x24, s.arg[1]),
        (0x28, s.arg[2]), (0x2C, s.arg[3]), (0x30, s.arg[4]), (0x34, s.arg[5]), (0x38, s.arg[6]), (0x3C, s.arg[7])] →
      hostInput (r32 a) s = { s with responses := .okayRead v :: s.responses })

/-- R52, R412: irq is IRQEN AND DONE: completion of any command raises it exactly when IRQEN = 1, and an acknowledge, a
START that begins a command, a reset and a write of IRQEN = 0 drop it. -/
def Obligations.InterruptLevel : Prop :=
  (∀ s : State, irq s = (s.irqen && s.done)) ∧
  (∀ (i : Instr) (s t : State), exec i s = .next t → irq t = s.irqen) ∧
  (∀ (s : State) (v : Word), v.getLsbD 1 = true → irq (hostInput (w32 0x10 v) s) = false) ∧
  (∀ (s : State) (v : Word), s.busy = false → v.getLsbD 0 = true → irq (hostInput (w32 0x0C v) s) = false) ∧
  (∀ (s : State) (v : Word), v.getLsbD 1 = true → irq (hostInput (w32 0x0C v) s) = false) ∧
  (∀ (s : State) (v : Word), v.getLsbD 2 = false → irq (hostInput (w32 0x0C v) s) = false) ∧
  (∀ s : State, irq (hostInput .hardReset s) = false)

/-! ### The whole machine -/

/-- R41, R50, R403: the invariant holds right after reset. -/
def Obligations.ResetMeetsTheInvariant : Prop := State.reset.Inv

/-- R41, R50, R51, R94, R403, R511: every step keeps the invariant, from every state that meets it. -/
def Obligations.StepKeepsTheInvariant : Prop :=
  ∀ s t : State, s.Inv → step s = .next t → t.Inv

/-- R6, R54, R400: every run, of any length from any state, goes on and never changes a parameter: no fault and no refusal
exists. -/
def Obligations.EveryRunIsSafe : Prop := ∀ (s : State) (n : Nat), SafeRun s n

/-- R520, R521: every command ends: from a state with BUSY = 1 a bounded number of steps leads to BUSY = 0. The bound is
the latency still to pass plus one. (`wait` is the model's own form of the finite latency: log entry 3; a block that hangs
is not modelled: log entry 13.) -/
def Obligations.EveryCommandEnds : Prop :=
  ∀ s : State, s.busy = true →
    ∃ n ≤ s.wait + 1, ∃ t : State, Host.Core.run Sys2Proof.core n s = .next t ∧ t.busy = false

/-- R37, R90, R94, R408, R411, R502: what a step can do to a command in progress: leave it and its operands alone, complete
it, or abandon it by a reset; nothing else. -/
def Obligations.OnlyCompletionOrResetEndsACommand : Prop :=
  ∀ s t : State, step s = .next t → s.busy = true →
    (t.busy = true ∧ t.lcmd = s.lcmd ∧ t.larg = s.larg ∧ t.lmem = s.lmem ∧ t.dmem = s.dmem ∧ t.cmd = s.cmd ∧
      t.arg = s.arg ∧ t.errcode = s.errcode ∧ t.reslen = s.reslen) ∨
    (engineTurn s = true ∧ t.busy = false ∧ t.done = true ∧ t.cmd = s.cmd ∧ t.arg = s.arg) ∨
    (resetNext s ∧ t.busy = false ∧ t.done = false)

/-- R43: WERR is sticky: a step clears it only by a STATUS write with bit 3 or a reset, and sets it only while BUSY, by a
host input that is not a completion. -/
def Obligations.WerrChangesOnlyAsItsRuleSays : Prop :=
  ∀ s t : State, step s = .next t →
    (s.werr = true → t.werr = false → resetNext s ∨ ∃ v : Word, isWrite s 0x10 v ∧ v.getLsbD 3 = true) ∧
    (s.werr = false → t.werr = true → s.busy = true ∧ engineTurn s = false ∧
      ∃ (a : WindowOffset) (w : Width) (v : Word), s.inputs.head? = some (.bus ⟨a, w, .write v⟩) ∧
        ((a.toNat = 0x0C ∧ v.getLsbD 0 = true ∧ v.getLsbD 1 = false) ∨ (0x1C ≤ a.toNat ∧ a.toNat ≤ 0x3C) ∨
          0x10000 ≤ a.toNat))

/-- R31, R47, R48: only a host write of that register while idle, or a reset, changes CMD or ARG; no command does. -/
def Obligations.OnlyTheHostWritesCmdAndArg : Prop :=
  ∀ s t : State, step s = .next t →
    (t.cmd ≠ s.cmd → resetNext s ∨ (s.busy = false ∧ isWrite s 0x1C t.cmd)) ∧
    (∀ k : Fin 8, t.arg[k] ≠ s.arg[k] →
      resetNext s ∨ (s.busy = false ∧ isWrite s (BitVec.ofNat 17 (0x20 + 4 * k.val)) t.arg[k]))

/-! ### What a command and the host read -/

/-- R9, R10, R93, R94, R124: what a command reads. The four pairs are (ARG0, ARG1), (ARG2, ARG3), (ARG4, ARG5), (ARG6, ARG7)
as latched at START, unsigned and unscaled. The string a pair names has the pair's length, and its byte `i` is the byte the
memory had at START at the pair's offset plus `i`, wherever that byte is specified. Its number is the big-endian value:
0 for the empty string, and one more byte at the end multiplies by 256 and adds it. -/
def Obligations.CommandsReadTheirLatchedOperands : Prop :=
  ∀ s : State,
    (offset s .a = (s.larg[0]).toNat ∧ length s .a = (s.larg[1]).toNat ∧
      offset s .b = (s.larg[2]).toNat ∧ length s .b = (s.larg[3]).toNat ∧
      offset s .m = (s.larg[4]).toNat ∧ length s .m = (s.larg[5]).toNat ∧
      offset s .out = (s.larg[6]).toNat ∧ length s .out = (s.larg[7]).toNat) ∧
    (∀ p : Pair, (operand s p).length = length s p ∧ bigint s p = be (operand s p) ∧
      ∀ i < length s p, ∀ b : Byte, s.lmem.get? (offset s p + i) = some b → (operand s p)[i]? = some b) ∧
    be [] = 0 ∧ ∀ (x : List Byte) (b : Byte), be (x ++ [b]) = be x * 256 + b.toNat

/-- R86, R89, R97: a host read of 1, 2 or 4 bytes, aligned and inside DMEM, while idle, all of whose bytes are specified,
whoever wrote them: the response carries the sum of `DMEM[o+i] << 8i`, and DMEM is unchanged. (The data of a 1- or 2-byte
read stands in the low bytes of 32 bits: log entry 17.) -/
def Obligations.DmemReadWhileIdleReturnsTheBytes : Prop :=
  ∀ (s : State) (a : WindowOffset) (w : Width) (x : Nat → Byte), s.busy = false → 0x10000 ≤ a.toNat →
    (a.toNat - 0x10000) % w.bytes = 0 → a.toNat - 0x10000 + w.bytes ≤ s.cfg.dmemBytes →
    (∀ i < w.bytes, s.dmem.get? (a.toNat - 0x10000 + i) = some (x i)) →
    ∃ v : Word, (hostInput (.bus ⟨a, w, .read⟩) s).responses = .okayRead v :: s.responses ∧
      v.toNat = ∑ i ∈ Finset.range w.bytes, (x i).toNat <<< (8 * i) ∧
      (hostInput (.bus ⟨a, w, .read⟩) s).dmem = s.dmem
end

