-- ==== Sys2Proof/Laws/Bytes.lean ====
section
/-! SUPPORT. Laws of byte strings: `be`, `be_L`, `xor` and block-wise maps. -/

namespace Sys2Proof.Machine

@[simp] theorem toBE_length (L v : Nat) : (toBE L v).length = L := by
  induction L with
  | zero => rfl
  | succ L ih => simp [toBE, ih]

@[simp] theorem be_nil : be [] = 0 := rfl

theorem be_cons (b : Byte) (bs : List Byte) : be (b :: bs) = b.toNat * 256 ^ bs.length + be bs := rfl

/-- A byte string's value fits its length (R9). -/
theorem be_lt (s : List Byte) : be s < 256 ^ s.length := by
  induction s with
  | nil => simp
  | cons b bs ih =>
    have hb : b.toNat < 256 := b.isLt
    have : b.toNat * 256 ^ bs.length ≤ 255 * 256 ^ bs.length := Nat.mul_le_mul_right _ (by omega)
    simp only [be_cons, List.length_cons, Nat.pow_succ]
    omega

/-- The value of `be_L(v)` (R9). -/
theorem be_toBE_mod (L v : Nat) : be (toBE L v) = v % 256 ^ L := by
  induction L with
  | zero => simp [toBE, Nat.mod_one]
  | succ L ih =>
    have hb : (BitVec.ofNat 8 (v / 256 ^ L)).toNat = v / 256 ^ L % 256 := rfl
    rw [toBE, be_cons, toBE_length, ih, hb, Nat.pow_succ, Nat.mod_mul, Nat.mul_comm, Nat.add_comm]

theorem be_toBE {L v : Nat} (h : v < 256 ^ L) : be (toBE L v) = v := by
  rw [be_toBE_mod, Nat.mod_eq_of_lt h]

/-- `be_L(v)` is the unique string of its length with that value (R9). -/
theorem toBE_be (s : List Byte) : toBE s.length (be s) = s := by
  induction s with
  | nil => rfl
  | cons b bs ih =>
    have hlt := be_lt bs
    have hdiv : be (b :: bs) / 256 ^ bs.length = b.toNat := by
      rw [be_cons, Nat.add_comm, Nat.add_mul_div_right _ _ (by positivity), Nat.div_eq_of_lt hlt, Nat.zero_add]
    have hmod : ∀ L k v : Nat, toBE L (k * 256 ^ L + v) = toBE L v := by
      intro L
      induction L with
      | zero => intros; rfl
      | succ L ihL =>
        intro k v
        have e : k * 256 ^ (L + 1) + v = (k * 256) * 256 ^ L + v := by rw [Nat.pow_succ]; ring
        rw [toBE, toBE, e, ihL, Nat.add_comm, Nat.add_mul_div_right _ _ (by positivity)]
        congr 1
        apply BitVec.eq_of_toNat_eq
        simp [Nat.add_mul_mod_self_right]
    rw [List.length_cons, toBE, hdiv, be_cons, hmod, ih]
    simp

@[simp] theorem xorBytes_length (s t : List Byte) : (xorBytes s t).length = min s.length t.length := by
  simp [xorBytes]

/-- XOR with the same string twice changes nothing, when that string is long enough (R9). -/
theorem xorBytes_xorBytes (s t : List Byte) (h : s.length ≤ t.length) : xorBytes (xorBytes s t) t = s := by
  induction s generalizing t with
  | nil => rfl
  | cons x xs ih =>
    cases t with
    | nil => simp at h
    | cons y ys =>
      simp only [List.length_cons, Nat.add_le_add_iff_right] at h
      have := ih ys h
      simp only [xorBytes, List.zipWith_cons_cons] at this ⊢
      rw [this, BitVec.xor_assoc, BitVec.xor_self, BitVec.xor_zero]

/-- A block-wise map whose blocks keep their length keeps the length of a string of whole blocks. -/
theorem mapBlocks_length (f : List Byte → List Byte) (N : Nat)
    (hf : ∀ x, x.length = N → (f x).length = N) (n : Nat) (x : List Byte) (hx : n * N ≤ x.length) :
    (mapBlocks f N n x).length = n * N := by
  induction n generalizing x with
  | zero => simp [mapBlocks]
  | succ n ih =>
    have h1 : (x.take N).length = N := by
      rw [List.length_take]; exact Nat.min_eq_left (by nlinarith)
    have h2 : n * N ≤ (x.drop N).length := by
      have := Nat.succ_mul n N; rw [List.length_drop]; simp only [Nat.succ_eq_add_one] at this; omega
    rw [mapBlocks, List.length_append, hf _ h1, ih _ h2]
    ring

end Sys2Proof.Machine
end

