-- ==== Sys2Proof/Laws/Memory.lean ====
section
/-! SUPPORT. Laws of data memory: read after write, a write leaves every other byte alone, and every operation keeps the
canonical form. -/

namespace Sys2Proof.Machine

@[simp] theorem get?_nil (a : Nat) : Memory.get? [] a = none := rfl

theorem get?_cons (c : Host.Cell) (m : Memory) (a : Nat) :
    Memory.get? (c :: m) a = if c.1 = a then some c.2 else m.get? a := rfl

/-- Reading one byte after setting one byte (R10). -/
theorem get?_set (m : Memory) (a x : Nat) (b : Byte) : (m.set a b).get? x = if a = x then some b else m.get? x := by
  induction m with
  | nil => simp [Memory.set, get?_cons]
  | cons c m ih =>
    unfold Memory.set
    split
    · rfl
    · split
      · rename_i h; subst h; simp only [get?_cons]; split <;> rfl
      · rename_i h1 h2
        simp only [get?_cons, ih]
        by_cases hc : c.1 = x
        · have : a ≠ x := by omega
          simp [hc, this]
        · simp [hc]

theorem mem_set {m : Memory} {a : Nat} {b : Byte} {c : Host.Cell} (h : c ∈ m.set a b) : c = (a, b) ∨ c ∈ m := by
  induction m with
  | nil => simpa [Memory.set] using h
  | cons d m ih =>
    unfold Memory.set at h
    split at h
    · simpa using h
    · split at h
      · rcases List.mem_cons.1 h with h | h
        · exact .inl h
        · exact .inr (List.mem_cons_of_mem _ h)
      · rcases List.mem_cons.1 h with h | h
        · exact .inr (h ▸ List.mem_cons_self)
        · rcases ih h with h | h
          · exact .inl h
          · exact .inr (List.mem_cons_of_mem _ h)

theorem set_wf {m : Memory} (h : m.wf) (a : Nat) (b : Byte) : (m.set a b).wf := by
  induction m with
  | nil => simp [Memory.set, Memory.wf]
  | cons c m ih =>
    obtain ⟨hc, hm⟩ := List.pairwise_cons.1 h
    unfold Memory.set
    split
    · rename_i hlt
      refine List.pairwise_cons.2 ⟨fun d hd => ?_, h⟩
      rcases List.mem_cons.1 hd with hd | hd
      · subst hd; exact hlt
      · exact Nat.lt_trans hlt (hc d hd)
    · split
      · rename_i heq
        exact List.pairwise_cons.2 ⟨fun d hd => by simpa [heq] using hc d hd, hm⟩
      · refine List.pairwise_cons.2 ⟨fun d hd => ?_, ih hm⟩
        rcases mem_set hd with hd | hd
        · subst hd; simp only; omega
        · exact hc d hd

@[simp] theorem write_nil (m : Memory) (o : Nat) : m.write o [] = m := by cases m <;> rfl

theorem write_cons (m : Memory) (o : Nat) (b : Byte) (bs : List Byte) :
    m.write o (b :: bs) = (m.set o b).write (o + 1) bs := by cases m <;> rfl

/-- A MemWrite sets exactly its bytes and leaves every other byte alone (R10, R95). -/
theorem get?_write (m : Memory) (o : Nat) (bs : List Byte) (a : Nat) :
    (m.write o bs).get? a = if o ≤ a ∧ a < o + bs.length then bs[a - o]? else m.get? a := by
  induction bs generalizing m o with
  | nil =>
    rw [write_nil, List.length_nil, if_neg (by omega)]
  | cons b bs ih =>
    rw [write_cons, ih, get?_set, List.length_cons]
    by_cases h0 : o = a
    · subst h0
      have h1 : o ≤ o ∧ o < o + (bs.length + 1) := by omega
      rw [if_neg (by omega), if_pos rfl, if_pos h1, Nat.sub_self, List.getElem?_cons_zero]
    · by_cases h1 : o + 1 ≤ a ∧ a < o + 1 + bs.length
      · have h2 : o ≤ a ∧ a < o + (bs.length + 1) := by omega
        have h3 : a - o = (a - (o + 1)) + 1 := by omega
        rw [if_pos h1, if_pos h2, h3, List.getElem?_cons_succ]
      · have h2 : ¬(o ≤ a ∧ a < o + (bs.length + 1)) := by omega
        rw [if_neg h1, if_neg h2, if_neg h0]

theorem write_wf {m : Memory} (h : m.wf) (o : Nat) (bs : List Byte) : (m.write o bs).wf := by
  induction bs generalizing m o with
  | nil => simpa using h
  | cons b bs ih => rw [write_cons]; exact ih (set_wf h o b) (o + 1)

theorem forget_wf {m : Memory} (h : m.wf) (o n : Nat) : (m.forget o n).wf := h.filter _

theorem mem_forget {m : Memory} {o n : Nat} {c : Host.Cell} (h : c ∈ m.forget o n) : c ∈ m := (List.mem_filter.1 h).1

/-- What forgetting a region leaves (R502). -/
theorem get?_forget (m : Memory) (o n a : Nat) :
    (m.forget o n).get? a = if o ≤ a ∧ a < o + n then none else m.get? a := by
  induction m with
  | nil => simp [Memory.forget]
  | cons c m ih =>
    unfold Memory.forget at ih ⊢
    rw [List.filter_cons]
    split
    · rename_i h
      simp only [decide_eq_true_eq, Bool.or_eq_true] at h
      rw [get?_cons, ih, get?_cons]
      by_cases hc : c.1 = a
      · have : ¬(o ≤ a ∧ a < o + n) := by omega
        simp [hc, this]
      · simp [hc]
    · rename_i h
      simp only [decide_eq_true_eq, Bool.or_eq_true, not_or] at h
      rw [ih, get?_cons]
      by_cases hc : c.1 = a
      · have : o ≤ a ∧ a < o + n := by omega
        simp [this]
      · simp [hc]

theorem set_inside {m : Memory} {n a : Nat} (h : m.inside n) (ha : a < n) (b : Byte) : (m.set a b).inside n :=
  ⟨set_wf h.1 a b, fun c hc => by
    rcases mem_set hc with rfl | hc
    · exact ha
    · exact h.2 c hc⟩

theorem write_inside {m : Memory} {n o : Nat} {bs : List Byte} (h : m.inside n) (ho : o + bs.length ≤ n) :
    (m.write o bs).inside n := by
  induction bs generalizing m o with
  | nil => simpa using h
  | cons b bs ih =>
    rw [List.length_cons] at ho
    rw [write_cons]
    exact ih (set_inside h (by omega) b) (by omega)

theorem forget_inside {m : Memory} {n : Nat} (h : m.inside n) (o k : Nat) : (m.forget o k).inside n :=
  ⟨forget_wf h.1 o k, fun c hc => h.2 c (mem_forget hc)⟩

@[simp] theorem read_length (m : Memory) (event slot o n : Nat) : (m.read event slot o n).length = n := by
  simp [Memory.read]

/-- A byte that is specified reads as its value, whatever the draw (R89). -/
theorem byte_of_get? {m : Memory} {a : Nat} {b : Byte} (h : m.get? a = some b) (event slot : Nat) :
    m.byte event slot a = b := by simp [Memory.byte, h]

/-- Byte `i` of a read is the byte `i` places past its offset (R10). -/
theorem read_getElem? (m : Memory) (event slot o n i : Nat) :
    (m.read event slot o n)[i]? = if i < n then some (m.byte event slot (o + i)) else none := by
  by_cases h : i < n <;> simp [Memory.read, h]

@[simp] theorem drawRng_length (event n : Nat) : (drawRng event n).length = n := by simp [drawRng]

/-- Reset memory has the canonical form, with nothing listed. -/
theorem reset_dmem_inside : State.reset.dmem.inside State.reset.cfg.dmemBytes := by decide

end Sys2Proof.Machine
end

