-- ==== Sys2Proof/Laws/State.lean ====
section
/-! SUPPORT. One lemma per field and per named update of the state, true by rfl: later proofs never unfold a record update. -/

namespace Sys2Proof.Machine

/-! ### State.reset -/

@[simp] theorem State.reset_cfg : (State.reset).cfg = Config.default := rfl
@[simp] theorem State.reset_irqen : (State.reset).irqen = false := rfl
@[simp] theorem State.reset_busy : (State.reset).busy = false := rfl
@[simp] theorem State.reset_done : (State.reset).done = false := rfl
@[simp] theorem State.reset_err : (State.reset).err = false := rfl
@[simp] theorem State.reset_werr : (State.reset).werr = false := rfl
@[simp] theorem State.reset_errcode : (State.reset).errcode = 0 := rfl
@[simp] theorem State.reset_reslen : (State.reset).reslen = 0 := rfl
@[simp] theorem State.reset_cmd : (State.reset).cmd = 0 := rfl
@[simp] theorem State.reset_arg : (State.reset).arg = Vector.replicate 8 0 := rfl
@[simp] theorem State.reset_dmem : (State.reset).dmem = [] := rfl
@[simp] theorem State.reset_lcmd : (State.reset).lcmd = 0 := rfl
@[simp] theorem State.reset_larg : (State.reset).larg = Vector.replicate 8 0 := rfl
@[simp] theorem State.reset_lmem : (State.reset).lmem = [] := rfl
@[simp] theorem State.reset_wait : (State.reset).wait = 0 := rfl
@[simp] theorem State.reset_event : (State.reset).event = 0 := rfl
@[simp] theorem State.reset_inputs : (State.reset).inputs = [] := rfl
@[simp] theorem State.reset_responses : (State.reset).responses = [] := rfl

/-! ### hardReset -/

@[simp] theorem hardReset_cfg (s : State) : (hardReset s).cfg = s.cfg := rfl
@[simp] theorem hardReset_irqen (s : State) : (hardReset s).irqen = false := rfl
@[simp] theorem hardReset_busy (s : State) : (hardReset s).busy = false := rfl
@[simp] theorem hardReset_done (s : State) : (hardReset s).done = false := rfl
@[simp] theorem hardReset_err (s : State) : (hardReset s).err = false := rfl
@[simp] theorem hardReset_werr (s : State) : (hardReset s).werr = false := rfl
@[simp] theorem hardReset_errcode (s : State) : (hardReset s).errcode = 0 := rfl
@[simp] theorem hardReset_reslen (s : State) : (hardReset s).reslen = 0 := rfl
@[simp] theorem hardReset_cmd (s : State) : (hardReset s).cmd = 0 := rfl
@[simp] theorem hardReset_arg (s : State) : (hardReset s).arg = Vector.replicate 8 0 := rfl
@[simp] theorem hardReset_dmem (s : State) : (hardReset s).dmem = [] := rfl
@[simp] theorem hardReset_lcmd (s : State) : (hardReset s).lcmd = 0 := rfl
@[simp] theorem hardReset_larg (s : State) : (hardReset s).larg = Vector.replicate 8 0 := rfl
@[simp] theorem hardReset_lmem (s : State) : (hardReset s).lmem = [] := rfl
@[simp] theorem hardReset_wait (s : State) : (hardReset s).wait = 0 := rfl
@[simp] theorem hardReset_event (s : State) : (hardReset s).event = s.event := rfl
@[simp] theorem hardReset_inputs (s : State) : (hardReset s).inputs = s.inputs := rfl
@[simp] theorem hardReset_responses (s : State) : (hardReset s).responses = s.responses := rfl

/-! ### softReset -/

@[simp] theorem softReset_cfg (s : State) : (softReset s).cfg = s.cfg := rfl
@[simp] theorem softReset_irqen (s : State) : (softReset s).irqen = false := rfl
@[simp] theorem softReset_busy (s : State) : (softReset s).busy = false := rfl
@[simp] theorem softReset_done (s : State) : (softReset s).done = false := rfl
@[simp] theorem softReset_err (s : State) : (softReset s).err = false := rfl
@[simp] theorem softReset_werr (s : State) : (softReset s).werr = false := rfl
@[simp] theorem softReset_errcode (s : State) : (softReset s).errcode = 0 := rfl
@[simp] theorem softReset_reslen (s : State) : (softReset s).reslen = 0 := rfl
@[simp] theorem softReset_cmd (s : State) : (softReset s).cmd = 0 := rfl
@[simp] theorem softReset_arg (s : State) : (softReset s).arg = Vector.replicate 8 0 := rfl
@[simp] theorem softReset_dmem (s : State) : (softReset s).dmem = if s.busy then abandonedMemory s else s.dmem := rfl
@[simp] theorem softReset_lcmd (s : State) : (softReset s).lcmd = 0 := rfl
@[simp] theorem softReset_larg (s : State) : (softReset s).larg = Vector.replicate 8 0 := rfl
@[simp] theorem softReset_lmem (s : State) : (softReset s).lmem = [] := rfl
@[simp] theorem softReset_wait (s : State) : (softReset s).wait = 0 := rfl
@[simp] theorem softReset_event (s : State) : (softReset s).event = s.event := rfl
@[simp] theorem softReset_inputs (s : State) : (softReset s).inputs = s.inputs := rfl
@[simp] theorem softReset_responses (s : State) : (softReset s).responses = s.responses := rfl

/-! ### latchCommand -/

@[simp] theorem latchCommand_cfg (s : State) : (latchCommand s).cfg = s.cfg := rfl
@[simp] theorem latchCommand_irqen (s : State) : (latchCommand s).irqen = s.irqen := rfl
@[simp] theorem latchCommand_busy (s : State) : (latchCommand s).busy = true := rfl
@[simp] theorem latchCommand_done (s : State) : (latchCommand s).done = false := rfl
@[simp] theorem latchCommand_err (s : State) : (latchCommand s).err = false := rfl
@[simp] theorem latchCommand_werr (s : State) : (latchCommand s).werr = s.werr := rfl
@[simp] theorem latchCommand_errcode (s : State) : (latchCommand s).errcode = 0 := rfl
@[simp] theorem latchCommand_reslen (s : State) : (latchCommand s).reslen = 0 := rfl
@[simp] theorem latchCommand_cmd (s : State) : (latchCommand s).cmd = s.cmd := rfl
@[simp] theorem latchCommand_arg (s : State) : (latchCommand s).arg = s.arg := rfl
@[simp] theorem latchCommand_dmem (s : State) : (latchCommand s).dmem = s.dmem := rfl
@[simp] theorem latchCommand_lcmd (s : State) : (latchCommand s).lcmd = s.cmd := rfl
@[simp] theorem latchCommand_larg (s : State) : (latchCommand s).larg = s.arg := rfl
@[simp] theorem latchCommand_lmem (s : State) : (latchCommand s).lmem = s.dmem := rfl
@[simp] theorem latchCommand_wait (s : State) : (latchCommand s).wait = s.wait := rfl
@[simp] theorem latchCommand_event (s : State) : (latchCommand s).event = s.event := rfl
@[simp] theorem latchCommand_inputs (s : State) : (latchCommand s).inputs = s.inputs := rfl
@[simp] theorem latchCommand_responses (s : State) : (latchCommand s).responses = s.responses := rfl

/-! ### startCommand -/

@[simp] theorem startCommand_cfg (s : State) : (startCommand s).cfg = s.cfg := rfl
@[simp] theorem startCommand_irqen (s : State) : (startCommand s).irqen = s.irqen := rfl
@[simp] theorem startCommand_busy (s : State) : (startCommand s).busy = true := rfl
@[simp] theorem startCommand_done (s : State) : (startCommand s).done = false := rfl
@[simp] theorem startCommand_err (s : State) : (startCommand s).err = false := rfl
@[simp] theorem startCommand_werr (s : State) : (startCommand s).werr = s.werr := rfl
@[simp] theorem startCommand_errcode (s : State) : (startCommand s).errcode = 0 := rfl
@[simp] theorem startCommand_reslen (s : State) : (startCommand s).reslen = 0 := rfl
@[simp] theorem startCommand_cmd (s : State) : (startCommand s).cmd = s.cmd := rfl
@[simp] theorem startCommand_arg (s : State) : (startCommand s).arg = s.arg := rfl
@[simp] theorem startCommand_dmem (s : State) : (startCommand s).dmem = s.dmem := rfl
@[simp] theorem startCommand_lcmd (s : State) : (startCommand s).lcmd = s.cmd := rfl
@[simp] theorem startCommand_larg (s : State) : (startCommand s).larg = s.arg := rfl
@[simp] theorem startCommand_lmem (s : State) : (startCommand s).lmem = s.dmem := rfl
@[simp] theorem startCommand_wait (s : State) : (startCommand s).wait = Config.latency s.event := rfl
@[simp] theorem startCommand_event (s : State) : (startCommand s).event = s.event + 1 := rfl
@[simp] theorem startCommand_inputs (s : State) : (startCommand s).inputs = s.inputs := rfl
@[simp] theorem startCommand_responses (s : State) : (startCommand s).responses = s.responses := rfl

/-! ### completeOk -/

@[simp] theorem completeOk_cfg (r : Success) (s : State) : (completeOk r s).cfg = s.cfg := rfl
@[simp] theorem completeOk_irqen (r : Success) (s : State) : (completeOk r s).irqen = s.irqen := rfl
@[simp] theorem completeOk_busy (r : Success) (s : State) : (completeOk r s).busy = false := rfl
@[simp] theorem completeOk_done (r : Success) (s : State) : (completeOk r s).done = true := rfl
@[simp] theorem completeOk_err (r : Success) (s : State) : (completeOk r s).err = false := rfl
@[simp] theorem completeOk_werr (r : Success) (s : State) : (completeOk r s).werr = s.werr := rfl
@[simp] theorem completeOk_errcode (r : Success) (s : State) : (completeOk r s).errcode = 0 := rfl
@[simp] theorem completeOk_reslen (r : Success) (s : State) : (completeOk r s).reslen = BitVec.ofNat 32 r.out.length := rfl
@[simp] theorem completeOk_cmd (r : Success) (s : State) : (completeOk r s).cmd = s.cmd := rfl
@[simp] theorem completeOk_arg (r : Success) (s : State) : (completeOk r s).arg = s.arg := rfl
@[simp] theorem completeOk_dmem (r : Success) (s : State) : (completeOk r s).dmem = commitMemory r s := rfl
@[simp] theorem completeOk_lcmd (r : Success) (s : State) : (completeOk r s).lcmd = s.lcmd := rfl
@[simp] theorem completeOk_larg (r : Success) (s : State) : (completeOk r s).larg = s.larg := rfl
@[simp] theorem completeOk_lmem (r : Success) (s : State) : (completeOk r s).lmem = s.lmem := rfl
@[simp] theorem completeOk_wait (r : Success) (s : State) : (completeOk r s).wait = s.wait := rfl
@[simp] theorem completeOk_event (r : Success) (s : State) : (completeOk r s).event = s.event + 1 := rfl
@[simp] theorem completeOk_inputs (r : Success) (s : State) : (completeOk r s).inputs = s.inputs := rfl
@[simp] theorem completeOk_responses (r : Success) (s : State) : (completeOk r s).responses = s.responses := rfl

/-! ### completeErr -/

@[simp] theorem completeErr_cfg (e : ErrCode) (s : State) : (completeErr e s).cfg = s.cfg := rfl
@[simp] theorem completeErr_irqen (e : ErrCode) (s : State) : (completeErr e s).irqen = s.irqen := rfl
@[simp] theorem completeErr_busy (e : ErrCode) (s : State) : (completeErr e s).busy = false := rfl
@[simp] theorem completeErr_done (e : ErrCode) (s : State) : (completeErr e s).done = true := rfl
@[simp] theorem completeErr_err (e : ErrCode) (s : State) : (completeErr e s).err = true := rfl
@[simp] theorem completeErr_werr (e : ErrCode) (s : State) : (completeErr e s).werr = s.werr := rfl
@[simp] theorem completeErr_errcode (e : ErrCode) (s : State) : (completeErr e s).errcode = e.code := rfl
@[simp] theorem completeErr_reslen (e : ErrCode) (s : State) : (completeErr e s).reslen = 0 := rfl
@[simp] theorem completeErr_cmd (e : ErrCode) (s : State) : (completeErr e s).cmd = s.cmd := rfl
@[simp] theorem completeErr_arg (e : ErrCode) (s : State) : (completeErr e s).arg = s.arg := rfl
@[simp] theorem completeErr_dmem (e : ErrCode) (s : State) : (completeErr e s).dmem = s.dmem := rfl
@[simp] theorem completeErr_lcmd (e : ErrCode) (s : State) : (completeErr e s).lcmd = s.lcmd := rfl
@[simp] theorem completeErr_larg (e : ErrCode) (s : State) : (completeErr e s).larg = s.larg := rfl
@[simp] theorem completeErr_lmem (e : ErrCode) (s : State) : (completeErr e s).lmem = s.lmem := rfl
@[simp] theorem completeErr_wait (e : ErrCode) (s : State) : (completeErr e s).wait = s.wait := rfl
@[simp] theorem completeErr_event (e : ErrCode) (s : State) : (completeErr e s).event = s.event + 1 := rfl
@[simp] theorem completeErr_inputs (e : ErrCode) (s : State) : (completeErr e s).inputs = s.inputs := rfl
@[simp] theorem completeErr_responses (e : ErrCode) (s : State) : (completeErr e s).responses = s.responses := rfl

/-! ### takeInput -/

@[simp] theorem takeInput_cfg (rest : List Input) (s : State) : (takeInput rest s).cfg = s.cfg := rfl
@[simp] theorem takeInput_irqen (rest : List Input) (s : State) : (takeInput rest s).irqen = s.irqen := rfl
@[simp] theorem takeInput_busy (rest : List Input) (s : State) : (takeInput rest s).busy = s.busy := rfl
@[simp] theorem takeInput_done (rest : List Input) (s : State) : (takeInput rest s).done = s.done := rfl
@[simp] theorem takeInput_err (rest : List Input) (s : State) : (takeInput rest s).err = s.err := rfl
@[simp] theorem takeInput_werr (rest : List Input) (s : State) : (takeInput rest s).werr = s.werr := rfl
@[simp] theorem takeInput_errcode (rest : List Input) (s : State) : (takeInput rest s).errcode = s.errcode := rfl
@[simp] theorem takeInput_reslen (rest : List Input) (s : State) : (takeInput rest s).reslen = s.reslen := rfl
@[simp] theorem takeInput_cmd (rest : List Input) (s : State) : (takeInput rest s).cmd = s.cmd := rfl
@[simp] theorem takeInput_arg (rest : List Input) (s : State) : (takeInput rest s).arg = s.arg := rfl
@[simp] theorem takeInput_dmem (rest : List Input) (s : State) : (takeInput rest s).dmem = s.dmem := rfl
@[simp] theorem takeInput_lcmd (rest : List Input) (s : State) : (takeInput rest s).lcmd = s.lcmd := rfl
@[simp] theorem takeInput_larg (rest : List Input) (s : State) : (takeInput rest s).larg = s.larg := rfl
@[simp] theorem takeInput_lmem (rest : List Input) (s : State) : (takeInput rest s).lmem = s.lmem := rfl
@[simp] theorem takeInput_wait (rest : List Input) (s : State) : (takeInput rest s).wait = s.wait - 1 := rfl
@[simp] theorem takeInput_event (rest : List Input) (s : State) : (takeInput rest s).event = s.event := rfl
@[simp] theorem takeInput_inputs (rest : List Input) (s : State) : (takeInput rest s).inputs = rest := rfl
@[simp] theorem takeInput_responses (rest : List Input) (s : State) : (takeInput rest s).responses = s.responses := rfl

/-! ### respond -/

@[simp] theorem respond_cfg (r : Response) (s : State) : (respond r s).cfg = s.cfg := rfl
@[simp] theorem respond_irqen (r : Response) (s : State) : (respond r s).irqen = s.irqen := rfl
@[simp] theorem respond_busy (r : Response) (s : State) : (respond r s).busy = s.busy := rfl
@[simp] theorem respond_done (r : Response) (s : State) : (respond r s).done = s.done := rfl
@[simp] theorem respond_err (r : Response) (s : State) : (respond r s).err = s.err := rfl
@[simp] theorem respond_werr (r : Response) (s : State) : (respond r s).werr = s.werr := rfl
@[simp] theorem respond_errcode (r : Response) (s : State) : (respond r s).errcode = s.errcode := rfl
@[simp] theorem respond_reslen (r : Response) (s : State) : (respond r s).reslen = s.reslen := rfl
@[simp] theorem respond_cmd (r : Response) (s : State) : (respond r s).cmd = s.cmd := rfl
@[simp] theorem respond_arg (r : Response) (s : State) : (respond r s).arg = s.arg := rfl
@[simp] theorem respond_dmem (r : Response) (s : State) : (respond r s).dmem = s.dmem := rfl
@[simp] theorem respond_lcmd (r : Response) (s : State) : (respond r s).lcmd = s.lcmd := rfl
@[simp] theorem respond_larg (r : Response) (s : State) : (respond r s).larg = s.larg := rfl
@[simp] theorem respond_lmem (r : Response) (s : State) : (respond r s).lmem = s.lmem := rfl
@[simp] theorem respond_wait (r : Response) (s : State) : (respond r s).wait = s.wait := rfl
@[simp] theorem respond_event (r : Response) (s : State) : (respond r s).event = s.event := rfl
@[simp] theorem respond_inputs (r : Response) (s : State) : (respond r s).inputs = s.inputs := rfl
@[simp] theorem respond_responses (r : Response) (s : State) : (respond r s).responses = r :: s.responses := rfl

/-! ### dropWrite -/

@[simp] theorem dropWrite_cfg (s : State) : (dropWrite s).cfg = s.cfg := rfl
@[simp] theorem dropWrite_irqen (s : State) : (dropWrite s).irqen = s.irqen := rfl
@[simp] theorem dropWrite_busy (s : State) : (dropWrite s).busy = s.busy := rfl
@[simp] theorem dropWrite_done (s : State) : (dropWrite s).done = s.done := rfl
@[simp] theorem dropWrite_err (s : State) : (dropWrite s).err = s.err := rfl
@[simp] theorem dropWrite_werr (s : State) : (dropWrite s).werr = true := rfl
@[simp] theorem dropWrite_errcode (s : State) : (dropWrite s).errcode = s.errcode := rfl
@[simp] theorem dropWrite_reslen (s : State) : (dropWrite s).reslen = s.reslen := rfl
@[simp] theorem dropWrite_cmd (s : State) : (dropWrite s).cmd = s.cmd := rfl
@[simp] theorem dropWrite_arg (s : State) : (dropWrite s).arg = s.arg := rfl
@[simp] theorem dropWrite_dmem (s : State) : (dropWrite s).dmem = s.dmem := rfl
@[simp] theorem dropWrite_lcmd (s : State) : (dropWrite s).lcmd = s.lcmd := rfl
@[simp] theorem dropWrite_larg (s : State) : (dropWrite s).larg = s.larg := rfl
@[simp] theorem dropWrite_lmem (s : State) : (dropWrite s).lmem = s.lmem := rfl
@[simp] theorem dropWrite_wait (s : State) : (dropWrite s).wait = s.wait := rfl
@[simp] theorem dropWrite_event (s : State) : (dropWrite s).event = s.event := rfl
@[simp] theorem dropWrite_inputs (s : State) : (dropWrite s).inputs = s.inputs := rfl
@[simp] theorem dropWrite_responses (s : State) : (dropWrite s).responses = s.responses := rfl

/-! ### countDraw -/

@[simp] theorem countDraw_cfg (s : State) : (countDraw s).cfg = s.cfg := rfl
@[simp] theorem countDraw_irqen (s : State) : (countDraw s).irqen = s.irqen := rfl
@[simp] theorem countDraw_busy (s : State) : (countDraw s).busy = s.busy := rfl
@[simp] theorem countDraw_done (s : State) : (countDraw s).done = s.done := rfl
@[simp] theorem countDraw_err (s : State) : (countDraw s).err = s.err := rfl
@[simp] theorem countDraw_werr (s : State) : (countDraw s).werr = s.werr := rfl
@[simp] theorem countDraw_errcode (s : State) : (countDraw s).errcode = s.errcode := rfl
@[simp] theorem countDraw_reslen (s : State) : (countDraw s).reslen = s.reslen := rfl
@[simp] theorem countDraw_cmd (s : State) : (countDraw s).cmd = s.cmd := rfl
@[simp] theorem countDraw_arg (s : State) : (countDraw s).arg = s.arg := rfl
@[simp] theorem countDraw_dmem (s : State) : (countDraw s).dmem = s.dmem := rfl
@[simp] theorem countDraw_lcmd (s : State) : (countDraw s).lcmd = s.lcmd := rfl
@[simp] theorem countDraw_larg (s : State) : (countDraw s).larg = s.larg := rfl
@[simp] theorem countDraw_lmem (s : State) : (countDraw s).lmem = s.lmem := rfl
@[simp] theorem countDraw_wait (s : State) : (countDraw s).wait = s.wait := rfl
@[simp] theorem countDraw_event (s : State) : (countDraw s).event = s.event + 1 := rfl
@[simp] theorem countDraw_inputs (s : State) : (countDraw s).inputs = s.inputs := rfl
@[simp] theorem countDraw_responses (s : State) : (countDraw s).responses = s.responses := rfl

/-! ### clearStatus -/

@[simp] theorem clearStatus_cfg (v : Word) (s : State) : (clearStatus v s).cfg = s.cfg := rfl
@[simp] theorem clearStatus_irqen (v : Word) (s : State) : (clearStatus v s).irqen = s.irqen := rfl
@[simp] theorem clearStatus_busy (v : Word) (s : State) : (clearStatus v s).busy = s.busy := rfl
@[simp] theorem clearStatus_done (v : Word) (s : State) : (clearStatus v s).done = (s.done && !v.getLsbD 1) := rfl
@[simp] theorem clearStatus_err (v : Word) (s : State) : (clearStatus v s).err = (s.err && !v.getLsbD 2) := rfl
@[simp] theorem clearStatus_werr (v : Word) (s : State) : (clearStatus v s).werr = (s.werr && !v.getLsbD 3) := rfl
@[simp] theorem clearStatus_errcode (v : Word) (s : State) : (clearStatus v s).errcode = s.errcode := rfl
@[simp] theorem clearStatus_reslen (v : Word) (s : State) : (clearStatus v s).reslen = s.reslen := rfl
@[simp] theorem clearStatus_cmd (v : Word) (s : State) : (clearStatus v s).cmd = s.cmd := rfl
@[simp] theorem clearStatus_arg (v : Word) (s : State) : (clearStatus v s).arg = s.arg := rfl
@[simp] theorem clearStatus_dmem (v : Word) (s : State) : (clearStatus v s).dmem = s.dmem := rfl
@[simp] theorem clearStatus_lcmd (v : Word) (s : State) : (clearStatus v s).lcmd = s.lcmd := rfl
@[simp] theorem clearStatus_larg (v : Word) (s : State) : (clearStatus v s).larg = s.larg := rfl
@[simp] theorem clearStatus_lmem (v : Word) (s : State) : (clearStatus v s).lmem = s.lmem := rfl
@[simp] theorem clearStatus_wait (v : Word) (s : State) : (clearStatus v s).wait = s.wait := rfl
@[simp] theorem clearStatus_event (v : Word) (s : State) : (clearStatus v s).event = s.event := rfl
@[simp] theorem clearStatus_inputs (v : Word) (s : State) : (clearStatus v s).inputs = s.inputs := rfl
@[simp] theorem clearStatus_responses (v : Word) (s : State) : (clearStatus v s).responses = s.responses := rfl

end Sys2Proof.Machine
end

