-- ==== Sys2Proof/Laws/Outcome.lean ====
section
/-! SUPPORT. The shared checks and the completion: every meaning is the completion of an outcome, and what an outcome can be. -/

namespace Sys2Proof.Machine

/-! ### The checks -/

/-- A check passes into the rest of the pseudocode, or ends it with its error (R10). -/
@[simp] theorem require_bind {α : Type} (c : Prop) [Decidable c] (e : ErrCode) (f : Unit → Except ErrCode α) :
    (require c e >>= f) = if c then f () else .error e := by
  unfold require; split <;> rfl

/-- A failed check ends the whole pseudocode, also from inside a shared group of checks. -/
@[simp] theorem ite_error_bind {α β : Type} (c : Prop) [Decidable c] (x : Except ErrCode α) (e : ErrCode)
    (f : α → Except ErrCode β) : ((if c then x else .error e) >>= f) = if c then x >>= f else .error e := by
  split <;> rfl

theorem chk_eq (s : State) (p : Pair) : chk s p = require (inRange s p) .rangeError := rfl

theorem sizeLimit_eq (s : State) (p : Pair) (n : Nat) :
    sizeLimit s p n = require (length s p ≤ n) .operandTooLarge := rfl

theorem fit_eq (s : State) (r : List Byte) : fit s r = require (r.length ≤ length s .out) .outputTooSmall := rfl

theorem keyCheck_eq (s : State) : keyCheck s = require (length s .b = 32) .keyLengthError := rfl

theorem ivCheck_eq (s : State) : ivCheck s = require (length s .m = 8) .ivLengthError := rfl

theorem result_eq (s : State) (r : List Byte) :
    result s r = if r.length ≤ length s .out then .ok ⟨r, none⟩ else .error .outputTooSmall := by
  simp only [result, fit_eq, require_bind]; rfl

@[simp] theorem operand_length (s : State) (p : Pair) : (operand s p).length = length s p := by
  simp [operand, readFor]

@[simp] theorem readFor_length (s : State) (p : Pair) (o n : Nat) : (readFor s p o n).length = n := by
  simp [readFor]

/-! ### The completion -/

/-- The outcome each command computes (R11). -/
def outcome : Instr → State → CommandOutcome
  | .nop, _ => nopOutcome
  | .mul, s => mulOutcome s
  | .mod, s => modOutcome s
  | .mulmod, s => mulmodOutcome s
  | .modpow, s => modpowOutcome s
  | .rsaEnc, s => rsaOutcome .encodingError s
  | .rsaDec, s => rsaOutcome .decryptionError s
  | .gostEcbEnc, s => ecbOutcome (encryptBlock s.cfg.sbox) s
  | .gostEcbDec, s => ecbOutcome (decryptBlock s.cfg.sbox) s
  | .gostCfbEnc env ivgen, s => streamEncOutcome (cfb s.cfg.sbox true) env ivgen s
  | .gostCfbDec env, s => streamDecOutcome (cfb s.cfg.sbox false) env s
  | .gostOfbEnc env ivgen, s => streamEncOutcome (ofb s.cfg.sbox) env ivgen s
  | .gostOfbDec env, s => streamDecOutcome (ofb s.cfg.sbox) env s
  | .permEnc, s => permEncOutcome s
  | .permDec, s => permDecOutcome s
  | .rngFill, s => rngFillOutcome s

/-- Every meaning completes its outcome: the one way exec answers (R408). -/
theorem exec_eq (i : Instr) (s : State) : exec i s = .next (complete (outcome i s) s) := by
  cases i <;> rfl

@[simp] theorem complete_ok (r : Success) (s : State) : complete (.ok r) s = completeOk r s := rfl

@[simp] theorem complete_error (e : ErrCode) (s : State) : complete (.error e) s = completeErr e s := rfl

/-- What no completion changes (R402, R408). -/
theorem complete_kept (o : CommandOutcome) (s : State) : Kept s (complete o s) := by
  cases o <;> constructor <;> rfl

/-- The bytes after a commit, for an output and an IV written in the order of R95. -/
theorem completeOk_dmem_none (r : List Byte) (s : State) :
    (completeOk ⟨r, none⟩ s).dmem = s.dmem.write (offset s .out) r := rfl

theorem completeOk_dmem_some (r v : List Byte) (s : State) :
    (completeOk ⟨r, some v⟩ s).dmem = (s.dmem.write (offset s .m) v).write (offset s .out) r := rfl

/-- A command whose outcome is a result that fits its capacity succeeds with it (R95, R408). -/
theorem commits_of {i : Instr} {s : State} {r : List Byte} {iv : Option (List Byte)}
    (h : outcome i s = .ok ⟨r, iv⟩) (hr : r.length ≤ length s .out) : Commits i s r iv := by
  refine ⟨completeOk ⟨r, iv⟩ s, by rw [exec_eq, h]; rfl, rfl, rfl, rfl, rfl, ?_, complete_kept (.ok ⟨r, iv⟩) s, ?_⟩
  · have : length s .out < 2 ^ 32 := (s.larg[7]).isLt
    simp only [completeOk_reslen, BitVec.toNat_ofNat]
    exact Nat.mod_eq_of_lt (by omega)
  · intro a
    cases iv with
    | none => rw [completeOk_dmem_none, get?_write]
    | some v => rw [completeOk_dmem_some, get?_write, get?_write]

/-- A command whose outcome is an error fails with its code (R96, R408). -/
theorem rejects_of {i : Instr} {s : State} {e : ErrCode} (h : outcome i s = .error e) : Rejects i s e.code :=
  ⟨completeErr e s, by rw [exec_eq, h]; rfl, rfl, rfl, rfl, rfl, rfl, rfl, complete_kept (.error e) s⟩

/-! ### What an outcome can be -/

theorem pure_eq_ok {α : Type} (x : α) : (pure x : Except ErrCode α) = .ok x := rfl

/-- A chain of checks succeeds exactly when every check holds. -/
theorem check_eq_ok {α : Type} (c : Prop) [Decidable c] (x : Except ErrCode α) (e : ErrCode) (r : α) :
    (if c then x else .error e) = .ok r ↔ c ∧ x = .ok r := by
  split <;> simp_all

/-- A chain of checks fails exactly at its first check that does not hold (R404). -/
theorem check_eq_error {α : Type} (c : Prop) [Decidable c] (x : Except ErrCode α) (e e' : ErrCode) :
    (if c then x else .error e) = .error e' ↔ (c ∧ x = .error e') ∨ (¬c ∧ e = e') := by
  split <;> simp_all

/-- What every success has in common: the descriptors are valid, the result fits, and an IV is written back only for IVGEN
and then has the 8 bytes of its region. -/
structure OkFacts (i : Instr) (s : State) (r : Success) : Prop where
  ranged : Ranged i s
  fits : r.out.length ≤ length s .out
  iv : ∀ v, r.iv = some v → generatesIv i = true ∧ v.length = 8 ∧ length s .m = 8

theorem streamEnc_ok {mode : List Byte → List Byte → List Byte → List Byte} {env ivgen : Bool} {s : State} {r : Success}
    (h : streamEncOutcome mode env ivgen s = .ok r) :
    (inRange s .a ∧ inRange s .b ∧ inRange s .m ∧ inRange s .out) ∧ r.out.length ≤ length s .out ∧
      ∀ v, r.iv = some v → ivgen = true ∧ v.length = 8 ∧ length s .m = 8 := by
  simp only [streamEncOutcome, chk_eq, keyCheck_eq, ivCheck_eq, fit_eq, require_bind, check_eq_ok] at h
  obtain ⟨h1, h2, h3, h4, -, h6, h7, h⟩ := h
  cases h
  refine ⟨⟨h1, h2, h3, h4⟩, h7, ?_⟩
  cases ivgen <;> simp [encryptIv, h6]

theorem streamDec_ok {mode : List Byte → List Byte → List Byte → List Byte} {env : Bool} {s : State} {r : Success}
    (h : streamDecOutcome mode env s = .ok r) :
    (inRange s .a ∧ inRange s .b ∧ (env = true ∨ inRange s .m) ∧ inRange s .out) ∧ r.out.length ≤ length s .out ∧
      r.iv = none := by
  simp only [streamDecOutcome, chk_eq, keyCheck_eq, require_bind, check_eq_ok] at h
  obtain ⟨h1, h2, h3, h4, -, h⟩ := h
  refine ⟨⟨h1, h2, h3, h4⟩, ?_⟩
  cases env
  · simp only [ivCheck_eq, Bool.false_eq_true, if_false, require_bind, result_eq, check_eq_ok] at h
    obtain ⟨-, h7, h⟩ := h
    cases h
    exact ⟨h7, rfl⟩
  · simp only [if_true, result_eq, check_eq_ok] at h
    obtain ⟨-, h7, h⟩ := h
    cases h
    exact ⟨h7, rfl⟩

theorem outcome_ok {i : Instr} {s : State} {r : Success} (h : outcome i s = .ok r) : OkFacts i s r := by
  cases i with
  | nop => cases h; exact ⟨by simp [Ranged, usedPairs], by simp, by simp⟩
  | rngFill =>
    simp only [outcome, rngFillOutcome, chk_eq, require_bind, check_eq_ok] at h
    obtain ⟨h1, h⟩ := h
    cases h
    exact ⟨by simpa [Ranged, usedPairs] using h1, by simp, by simp⟩
  | gostCfbEnc env ivgen =>
    obtain ⟨h1, h2, h3⟩ := streamEnc_ok h
    exact ⟨by simpa [Ranged, usedPairs] using h1, h2, h3⟩
  | gostOfbEnc env ivgen =>
    obtain ⟨h1, h2, h3⟩ := streamEnc_ok h
    exact ⟨by simpa [Ranged, usedPairs] using h1, h2, h3⟩
  | gostCfbDec env =>
    obtain ⟨h1, h2, h3⟩ := streamDec_ok h
    refine ⟨?_, h2, by simp [h3]⟩
    cases env <;> simp_all [Ranged, usedPairs]
  | gostOfbDec env =>
    obtain ⟨h1, h2, h3⟩ := streamDec_ok h
    refine ⟨?_, h2, by simp [h3]⟩
    cases env <;> simp_all [Ranged, usedPairs]
  | _ =>
    simp only [outcome, mulOutcome, modOutcome, mulmodOutcome, modpowOutcome, rsaOutcome, threeOperandChecks, ecbOutcome,
      permEncOutcome, permDecOutcome, keyCheck_eq, chk_eq, sizeLimit_eq, require_bind, ite_error_bind, check_eq_ok,
      result_eq] at h
    refine ⟨by simp only [Ranged, usedPairs, List.mem_cons, List.not_mem_nil, or_false, forall_eq_or_imp, forall_eq]; tauto,
      ?_, ?_⟩
    all_goals
      rw [← (Except.ok.inj (by tauto : (Except.ok _ : CommandOutcome) = .ok r))]
      tauto

/-- The errors a legal command can raise: the reserved codes never (R403), ILLEGAL_COMMAND only for an illegal word. -/
abbrev Raisable (e : ErrCode) : Prop :=
  e ≠ .keygenError ∧ e ≠ .encryptionError ∧ e ≠ .ioError ∧ e ≠ .illegalCommand

theorem outcome_error {i : Instr} {s : State} {e : ErrCode} (h : outcome i s = .error e) : Raisable e := by
  cases i with
  | gostCfbDec env =>
    cases env <;>
    · simp only [outcome, streamDecOutcome, chk_eq, keyCheck_eq, ivCheck_eq, require_bind, check_eq_error, result_eq,
        if_true, if_false, Bool.false_eq_true, false_or, true_or, reduceCtorEq, and_false] at h
      grind
  | gostOfbDec env =>
    cases env <;>
    · simp only [outcome, streamDecOutcome, chk_eq, keyCheck_eq, ivCheck_eq, require_bind, check_eq_error, result_eq,
        if_true, if_false, Bool.false_eq_true, false_or, true_or, reduceCtorEq, and_false] at h
      grind
  | _ =>
    simp only [outcome, nopOutcome, rngFillOutcome, mulOutcome, modOutcome, mulmodOutcome, modpowOutcome, rsaOutcome,
      threeOperandChecks, ecbOutcome, streamEncOutcome, permEncOutcome, permDecOutcome, keyCheck_eq, ivCheck_eq, fit_eq,
      chk_eq, sizeLimit_eq, require_bind, ite_error_bind, check_eq_error, result_eq, pure_eq_ok, reduceCtorEq, and_false,
      false_or] at h <;> grind

/-- The code of a raised error is not 0 and is one of R403's. -/
@[simp] theorem code_ne_zero (e : ErrCode) : ¬e.code = 0#8 := by cases e <;> decide

theorem code_legal {e : ErrCode} (h1 : e ≠ .keygenError) (h2 : e ≠ .encryptionError) (h3 : e ≠ .ioError) :
    e.code ∈ legalErrcodes := by
  cases e <;> first | decide | contradiction

end Sys2Proof.Machine
end

