-- ==== Sys2Proof/Laws/PerInstr.lean ====
section
/-! SUPPORT. Statements made once per command, as syntax: the command word of each command is legal by every check of R128,
and exactly one row of the opcode map hits it. -/

namespace Sys2Proof.Laws.LegalWord

/-- The command's word passes every check of R128, and the rows of the opcode map do not overlap on it (R126, R127). -/
abbrev Statement (i : Instr) : Prop :=
  (CommandWord.ofWord (encode i)).wf = true ∧ (opcodeTable.filter (fun r => r.hits (encode i))).length = 1

theorem nop : Statement .nop := by decide
theorem mul : Statement .mul := by decide
theorem mod : Statement .mod := by decide
theorem mulmod : Statement .mulmod := by decide
theorem modpow : Statement .modpow := by decide
theorem rsaEnc : Statement .rsaEnc := by decide
theorem rsaDec : Statement .rsaDec := by decide
theorem gostEcbEnc : Statement .gostEcbEnc := by decide
theorem gostEcbDec : Statement .gostEcbDec := by decide
theorem gostCfbEnc (env ivgen : Bool) : Statement (.gostCfbEnc env ivgen) := by
  cases env <;> cases ivgen <;> decide
theorem gostCfbDec (env : Bool) : Statement (.gostCfbDec env) := by cases env <;> decide
theorem gostOfbEnc (env ivgen : Bool) : Statement (.gostOfbEnc env ivgen) := by
  cases env <;> cases ivgen <;> decide
theorem gostOfbDec (env : Bool) : Statement (.gostOfbDec env) := by cases env <;> decide
theorem permEnc : Statement .permEnc := by decide
theorem permDec : Statement .permDec := by decide
theorem rngFill : Statement .rngFill := by decide

end Sys2Proof.Laws.LegalWord
end

