-- ==== Sys2Proof/Laws/Step.lean ====
section
/-! SUPPORT. What one step can do, said once. -/

namespace Sys2Proof.Machine

theorem engineTurn_iff (s : State) : engineTurn s = true ↔ s.busy = true ∧ (s.wait = 0 ∨ s.inputs = []) := by
  simp [engineTurn, List.isEmpty_iff]

/-- The outcome of the command in progress: its decoded command's, or ILLEGAL_COMMAND (R128). -/
def latchedOutcome (s : State) : CommandOutcome :=
  match decode s.lcmd with
  | .ok i => outcome i s
  | .error _ => .error .illegalCommand

theorem engineStep_eq (s : State) : engineStep s = .next (complete (latchedOutcome s) s) := by
  simp only [engineStep, latchedOutcome, fetchWord]
  cases decode s.lcmd with
  | ok i => exact exec_eq i s
  | error e => rfl

/-- The step function has two cases and always answers a next state (R30, R92). -/
theorem step_cases {s t : State} (h : step s = .next t) :
    (engineTurn s = true ∧ t = complete (latchedOutcome s) s) ∨ (engineTurn s = false ∧ t = hostTurn s) := by
  unfold step at h
  split at h
  · rename_i he
    rw [engineStep_eq] at h
    exact .inl ⟨he, (Host.Outcome.next.inj h).symm⟩
  · rename_i he
    exact .inr ⟨by simpa using he, (Host.Outcome.next.inj h).symm⟩

/-- The host's turn has two cases: nothing to do, or the oldest input. -/
theorem hostTurn_cases (s : State) :
    (s.inputs = [] ∧ hostTurn s = s) ∨
    (∃ x rest, s.inputs = x :: rest ∧ hostTurn s = hostInput x (takeInput rest s)) := by
  unfold hostTurn
  cases h : s.inputs with
  | nil => exact .inl ⟨rfl, rfl⟩
  | cons x rest => exact .inr ⟨x, rest, rfl, rfl⟩

/-- What one bus transaction can do: an error and nothing else, or an access of the register or the DMEM offset that it
addresses (R81). -/
theorem busTransaction_cases (t : Transaction) (s : State) :
    (target s.cfg.dmemBytes t = .error ∧ busTransaction t s = respond .error s) ∨
    (∃ r, target s.cfg.dmemBytes t = .register r ∧ t.dir = .read ∧
      busTransaction t s = respond (.okayRead (regRead s r)) s) ∨
    (∃ r v, target s.cfg.dmemBytes t = .register r ∧ t.dir = .write v ∧
      busTransaction t s = respond .okayWrite (regWrite v s r)) ∨
    (∃ o, target s.cfg.dmemBytes t = .dmem o ∧ t.dir = .read ∧
      busTransaction t s = respond (.okayRead (dmemRead s o t.width.bytes)) (countDraw s)) ∨
    (∃ o v, target s.cfg.dmemBytes t = .dmem o ∧ t.dir = .write v ∧
      busTransaction t s = respond .okayWrite (dmemWrite v o t.width.bytes s)) := by
  unfold busTransaction
  cases target s.cfg.dmemBytes t <;> cases t.dir <;> simp

/-- The DMEM offset a transaction addresses lies inside DMEM with its whole width (R85). -/
theorem target_dmem {n : Nat} {t : Transaction} {o : Nat} (h : target n t = .dmem o) :
    0x10000 ≤ t.addr.toNat ∧ o = t.addr.toNat - 0x10000 ∧ o % t.width.bytes = 0 ∧ o + t.width.bytes ≤ n := by
  unfold target at h
  split at h
  · split at h <;> cases h
  · split at h
    · rename_i hc
      obtain rfl : t.addr.toNat - 0x10000 = o := Target.dmem.inj h
      exact ⟨hc.1, rfl, hc.2.1, hc.2.2⟩
    · cases h

/-- A register is addressed by an aligned 32-bit access of the register window (R82). -/
theorem target_register {n : Nat} {t : Transaction} {r : Reg} (h : target n t = .register r) :
    t.addr.toNat < 0x100 ∧ t.width = .word ∧ t.addr.toNat % 4 = 0 ∧ r = Reg.ofOffset t.addr.toNat := by
  unfold target at h
  split at h
  · rename_i h1
    split at h
    · rename_i h2
      exact ⟨h1, h2.1, h2.2, (Target.register.inj h).symm⟩
    · cases h
  · split at h <;> cases h

end Sys2Proof.Machine
end

