-- ==== Sys2Proof/Tests/Slice0.lean ====
section
/-! SUPPORT. The model's own tests, on fixed values, and the witnesses that the statements' hypotheses can be met.

Expected values come from the tables of spec/30_encoding.md and the vectors of spec/95_test_vectors.md (B, G, P, S, M, X),
named at each test. -/

namespace Sys2Proof.Tests

set_option Elab.async false

open Sys2Proof Sys2Proof.Machine

/-! ### Small states -/

/-- A command in progress over the given inputs: `a` at offset 0, `b` at 0x800, `m` at 0x1000, output at 0x1800. -/
def ready (a b m : List Byte) (cap : Word) : State :=
  let d := (((Memory.write [] 0 a).write 0x800 b).write 0x1000 m)
  let v : Vector Word 8 :=
    #v[0, BitVec.ofNat 32 a.length, 0x800, BitVec.ofNat 32 b.length, 0x1000, BitVec.ofNat 32 m.length, 0x1800, cap]
  { State.reset with busy := true, arg := v, larg := v, dmem := d, lmem := d }

/-- A command in progress whose four descriptors have offset 0 and the given lengths. -/
def lens (la lb lm cap : Word) : State :=
  { State.reset with busy := true, arg := #v[0, la, 0, lb, 0, lm, 0, cap], larg := #v[0, la, 0, lb, 0, lm, 0, cap] }

/-- A command in progress whose output region runs one byte past the end of DMEM. -/
def outside : State :=
  { State.reset with busy := true, larg := #v[0, 0, 0, 0, 0, 0, 16384, 1] }

/-- The block with a command in progress and the given command word. -/
def running (w : Word) : State := { State.reset with busy := true, cmd := w, lcmd := w }

/-- The bytes committed at 0x1800 and the error code. -/
def answer (i : Instr) (s : State) : Option (List (Option Byte) × BitVec 8) :=
  match exec i s with
  | .next t => some ((List.range t.reslen.toNat).map (fun k => t.dmem.get? (0x1800 + k)), t.errcode)
  | _ => none

/-- The error code and the result length. -/
def codeAndLength (i : Instr) (s : State) : Option (BitVec 8 × Nat) :=
  match exec i s with
  | .next t => some (t.errcode, t.reslen.toNat)
  | _ => none

/-- The GOST key of RFC 8891 (`KR` of 95_test_vectors.md). -/
def keyR : List Byte :=
  [0xff, 0xee, 0xdd, 0xcc, 0xbb, 0xaa, 0x99, 0x88, 0x77, 0x66, 0x55, 0x44, 0x33, 0x22, 0x11, 0x00] ++
  [0xf0, 0xf1, 0xf2, 0xf3, 0xf4, 0xf5, 0xf6, 0xf7, 0xf8, 0xf9, 0xfa, 0xfb, 0xfc, 0xfd, 0xfe, 0xff]

/-- 32 zero bytes (`K0`). -/
def key0 : List Byte := List.replicate 32 0

/-- The permutation key "201". -/
def key201 : List Byte := [0x32, 0x30, 0x31]

/-- The two GOST data blocks of vectors G18 and G19. -/
def twoBlocks : List Byte :=
  [0xfe, 0xdc, 0xba, 0x98, 0x76, 0x54, 0x32, 0x10] ++ [0x01, 0x23, 0x45, 0x67, 0x89, 0xab, 0xcd, 0xef]

/-- `IVR` of 95_test_vectors.md. -/
def ivR : List Byte := [0x12, 0x34, 0x56, 0x78, 0x90, 0xab, 0xcd, 0xef]

/-! ### Ill-formed terms are refused -/

theorem test_wf_opcode : (CommandWord.mk 0x07 false false 0 0).wf = false := by decide
theorem test_wf_env : (CommandWord.mk 0x10 true false 0 0).wf = false := by decide
theorem test_wf_ivgen : (CommandWord.mk 0x13 true true 0 0).wf = false := by decide
theorem test_wf_frsv : (CommandWord.mk 0x12 false false 1 0).wf = false := by decide
theorem test_wf_rsv : (CommandWord.mk 0x30 false false 0 0x8000).wf = false := by decide
theorem test_wf_config_aligned : { Config.default with dmemBytes := 1026 }.wf = false := by decide
theorem test_wf_config_range :
    { Config.default with dmemBytes := 1020 }.wf = false ∧ { Config.default with dmemBytes := 65540 }.wf = false := by
  decide
theorem test_wf_config_max :
    { Config.default with maxBytes := 0 }.wf = false ∧ { Config.default with maxBytes := 4097 }.wf = false := by decide
theorem test_wf_default : Config.default.wf = true := by decide

/-! ### Decoding: words written out from R120, R126 and R127 -/

/-- Bits [7:0] are the opcode, every other bit is 0. -/
theorem test_decode_plain :
    decode 0b00000000000000000000000000000000 = .ok .nop ∧
    decode 0b00000000000000000000000000000001 = .ok .mul ∧
    decode 0b00000000000000000000000000000010 = .ok .mod ∧
    decode 0b00000000000000000000000000000011 = .ok .mulmod ∧
    decode 0b00000000000000000000000000000100 = .ok .modpow ∧
    decode 0b00000000000000000000000000000101 = .ok .rsaEnc ∧
    decode 0b00000000000000000000000000000110 = .ok .rsaDec ∧
    decode 0b00000000000000000000000000010000 = .ok .gostEcbEnc ∧
    decode 0b00000000000000000000000000010001 = .ok .gostEcbDec ∧
    decode 0b00000000000000000000000000100000 = .ok .permEnc ∧
    decode 0b00000000000000000000000000100001 = .ok .permDec ∧
    decode 0b00000000000000000000000000110000 = .ok .rngFill := by decide

/-- ENV is bit 8, IVGEN is bit 9. -/
theorem test_decode_flags :
    decode 0b00000000000000000000000000010010 = .ok (.gostCfbEnc false false) ∧
    decode 0b00000000000000000000000100010010 = .ok (.gostCfbEnc true false) ∧
    decode 0b00000000000000000000001000010010 = .ok (.gostCfbEnc false true) ∧
    decode 0b00000000000000000000000000010011 = .ok (.gostCfbDec false) ∧
    decode 0b00000000000000000000000100010011 = .ok (.gostCfbDec true) ∧
    decode 0b00000000000000000000001100010100 = .ok (.gostOfbEnc true true) ∧
    decode 0b00000000000000000000001000010100 = .ok (.gostOfbEnc false true) ∧
    decode 0b00000000000000000000000000010101 = .ok (.gostOfbDec false) ∧
    decode 0b00000000000000000000000100010101 = .ok (.gostOfbDec true) := by decide

/-- Vectors X10 to X16. -/
theorem test_decode_illegal :
    decode 0x00000313 = .error .flagNotAllowed ∧ decode 0x00000110 = .error .flagNotAllowed ∧
    decode 0x00000101 = .error .flagNotAllowed ∧ decode 0x0000000F = .error .opcodeUnassigned ∧
    decode 0x00000016 = .error .opcodeUnassigned ∧ decode 0x000000FF = .error .opcodeUnassigned ∧
    decode 0x00000412 = .error .reservedFlagSet ∧ decode 0x00010000 = .error .reservedHalfSet := by decide

theorem test_decodeTableWord :
    decodeTableWord 32 0x314 = some (.gostOfbEnc true true) ∧ decodeTableWord 32 0x80000030 = none := by decide

/-! ### The commands -/

/-- Vector S1: every ARG is 0xFFFFFFFF. -/
theorem test_nop : codeAndLength .nop { State.reset with larg := Vector.replicate 8 0xFFFFFFFF } = some (0x00, 0) := by
  decide +kernel

/-- Vectors B1, B5. -/
theorem test_mul : answer .mul (ready [0xff] [0xff] [] 2) = some ([some 0xfe, some 0x01], 0x00) ∧
    answer .mul (ready [0xff] [0xff] [] 1) = some ([], 0x03) := by decide +kernel

/-- Vectors B7, B8: the sum of offset and length does not wrap. -/
theorem test_mul_range :
    codeAndLength .mul { State.reset with larg := #v[0x3FFF, 2, 0, 1, 0, 0, 0x100, 3] } = some (0x02, 0) ∧
    codeAndLength .mul { State.reset with larg := #v[0xFFFFFFFF, 1, 0, 1, 0, 0, 0x100, 3] } = some (0x02, 0) := by
  decide +kernel

/-- Vectors B9, B13. -/
theorem test_mod : answer .mod (ready [0x12, 0x34, 0x56, 0x78] [] [0x01, 0x00] 2) = some ([some 0x00, some 0x78], 0x00) ∧
    answer .mod (ready [0x12, 0x34] [] [0x00, 0x00] 2) = some ([], 0x05) := by decide +kernel

/-- Vectors B13c, B13d. -/
theorem test_mulmod :
    answer .mulmod (ready [0x12, 0x34] [0x56, 0x78] [0x0f, 0xff] 2) = some ([some 0x02, some 0xc6], 0x00) ∧
    answer .mulmod (ready [0xff] [0xff] [0x01] 1) = some ([some 0x00], 0x00) := by decide +kernel

/-- Vectors B16, B19, B21. -/
theorem test_modpow : answer .modpow (ready [0x00] [0x00] [0x05] 1) = some ([some 0x01], 0x00) ∧
    answer .modpow (ready [0x0a] [0x01] [0x00, 0x07] 2) = some ([some 0x00, some 0x03], 0x00) ∧
    answer .modpow (ready [0x03] [0xc8] [0x03, 0xe8] 2) = some ([some 0x00, some 0x01], 0x00) := by decide +kernel

/-- Vectors B25, B30. -/
theorem test_rsaEnc : answer .rsaEnc (ready [0x00, 0x41] [0x11] [0x0c, 0xa1] 2) = some ([some 0x0a, some 0xe6], 0x00) ∧
    answer .rsaEnc (ready [0x0c, 0xa1] [0x11] [0x0c, 0xa1] 2) = some ([], 0x15) := by decide +kernel

/-- Vectors B26, B32. -/
theorem test_rsaDec :
    answer .rsaDec (ready [0x0a, 0xe6] [0x0a, 0xc1] [0x0c, 0xa1] 2) = some ([some 0x00, some 0x41], 0x00) ∧
    answer .rsaDec (ready [0x0c, 0xa1] [0x0a, 0xc1] [0x0c, 0xa1] 2) = some ([], 0x17) := by decide +kernel

/-- Vector G1 (RFC 8891). -/
theorem test_gostEcbEnc :
    answer .gostEcbEnc (ready [0xfe, 0xdc, 0xba, 0x98, 0x76, 0x54, 0x32, 0x10] keyR [] 8) =
      some ([0x4e, 0xe9, 0x01, 0xe5, 0xc2, 0xd8, 0xca, 0x3d].map some, 0x00) := by decide +kernel

/-- Vector G2. -/
theorem test_gostEcbDec :
    answer .gostEcbDec (ready [0x4e, 0xe9, 0x01, 0xe5, 0xc2, 0xd8, 0xca, 0x3d] keyR [] 8) =
      some ([0xfe, 0xdc, 0xba, 0x98, 0x76, 0x54, 0x32, 0x10].map some, 0x00) := by decide +kernel

/-- Vector G18: the second block's keystream comes from the first ciphertext block. -/
theorem test_gostCfbEnc : answer (.gostCfbEnc false false) (ready twoBlocks keyR ivR 16) =
    some ([0xb7, 0x35, 0xaa, 0x11, 0x2c, 0xd7, 0x04, 0xca, 0xab, 0xe1, 0xbf, 0x88, 0x14, 0x64, 0xe2, 0x66].map some,
      0x00) := by decide +kernel

/-- Vectors G25, G24 and example E4's envelope. -/
theorem test_gostCfbEnc_envelope :
    answer (.gostCfbEnc true false) (ready [0x54, 0x45, 0x53, 0x54] key0 (List.replicate 8 0) 12) =
      some ([0, 0, 0, 0, 0, 0, 0, 0, 0x2c, 0xf3, 0xee, 0x1e].map some, 0x00) ∧
    codeAndLength (.gostCfbEnc true true) (ready [0x54, 0x45, 0x53, 0x54] keyR ivR 11) = some (0x03, 0) := by
  decide +kernel

/-- Example E4 decrypted, and vector G29. -/
theorem test_gostCfbDec :
    answer (.gostCfbDec true) (ready [0, 0, 0, 0, 0, 0, 0, 0, 0x2c, 0xf3, 0xee, 0x1e] key0 [] 4) =
      some ([0x54, 0x45, 0x53, 0x54].map some, 0x00) ∧
    codeAndLength (.gostCfbDec false) (ready [0x2c, 0xf3, 0xee, 0x1e] key0 (List.replicate 7 0) 4) = some (0x12, 0) := by
  decide +kernel

/-- Vector G19. -/
theorem test_gostOfbEnc : answer (.gostOfbEnc false false) (ready twoBlocks keyR ivR 16) =
    some ([0xb7, 0x35, 0xaa, 0x11, 0x2c, 0xd7, 0x04, 0xca, 0xeb, 0x43, 0x8e, 0x2b, 0xad, 0x0d, 0xfd, 0xdd].map some,
      0x00) := by decide +kernel

/-- Vector G28: the IV pair is neither used nor checked with ENV = 1. -/
theorem test_gostOfbDec :
    codeAndLength (.gostOfbDec true)
      { ready [1, 2, 3, 4, 5, 6, 7] key0 [] 16 with
        larg := #v[0, 7, 0x800, 32, 0xFFFFFFFF, 0xFFFFFFFF, 0x1800, 16] } = some (0x10, 0) := by decide +kernel

/-- Vectors P1v, P12v. -/
theorem test_permEnc :
    answer .permEnc (ready [0x61, 0x62, 0x63, 0x64, 0x65, 0x66] key201 [] 16) =
      some ([0x62, 0x63, 0x61, 0x65, 0x66, 0x64, 0x03, 0x03, 0x03].map some, 0x00) ∧
    answer .permEnc (ready [0x61] [0x31, 0x33] [] 16) = some ([], 0x13) := by decide +kernel

/-- Vectors P2v, P17v. -/
theorem test_permDec :
    answer .permDec (ready [0x62, 0x63, 0x61, 0x65, 0x66, 0x64, 0x03, 0x03, 0x03] key201 [] 16) =
      some ([0x61, 0x62, 0x63, 0x64, 0x65, 0x66].map some, 0x00) ∧
    answer .permDec (ready [0x62, 0x63, 0x61] key201 [] 16) = some ([], 0x17) := by decide +kernel

/-- Vectors S2, S4: the bytes are any value, so only the length and the code are tested. -/
theorem test_rngFill :
    codeAndLength .rngFill { State.reset with larg := #v[0, 0, 0, 0, 0, 0, 0x400, 32] } = some (0x00, 32) ∧
    codeAndLength .rngFill { State.reset with larg := #v[0, 0, 0, 0, 0, 0, 0x3FFF, 2] } = some (0x02, 0) := by
  decide +kernel

/-! ### The step and the bus -/

/-- The very next step runs the placed command; vector X3 (MOD with every ARG = 0). -/
theorem test_withFetchWord :
    (match step (State.reset.withFetchWord 32 0x00000002) with
      | .next t => some (t.errcode, t.done, t.busy, t.err)
      | _ => none) = some (0x05, true, false, true) := by decide +kernel

/-- Vector M16: an illegal word completes with ILLEGAL_COMMAND. -/
theorem test_illegal_word :
    (match step (running 0xFFFFFFFF) with
      | .next t => some (t.errcode, statusWord t)
      | _ => none) = some (0x01, 0x00000006) := by decide +kernel

/-- Vectors M3, M4: little-endian byte lanes. -/
theorem test_byte_lanes :
    (hostInput (w32 0x10000 0x01020304) State.reset).dmem = [(0, 0x04), (1, 0x03), (2, 0x02), (3, 0x01)] ∧
    (hostInput (w16 0x10002 0xBEEF) State.reset).dmem = [(2, 0xEF), (3, 0xBE)] := by decide +kernel

/-- Vectors M5 to M8, M10, M11: ERROR responses. -/
theorem test_bus_errors :
    ([w16 0x10001 0x1234, r32 0x10002, w8 0x0C 0x01, r32 0x0E, r32 0x100, r8 0x0FFFF, r8 0x14000].map
      (fun x => (hostInput x State.reset).responses)) = List.replicate 7 [.error] := by decide +kernel

/-- Vectors M1, M9, M13 to M15. -/
theorem test_registers :
    (hostInput (r32 0x08) (hostInput (r32 0x04) (hostInput (r32 0x00) State.reset))).responses =
      [.okayRead 0x00000200, .okayRead 0x00004000, .okayRead 0x4D580100] ∧
    (hostInput (r32 0x0C) (hostInput (w32 0x0C 0x00000004) State.reset)).responses = [.okayRead 4, .okayWrite] ∧
    (hostInput (r32 0x1C) (hostInput (w32 0x1C 0xFFFFFFFF) State.reset)).responses =
      [.okayRead 0xFFFFFFFF, .okayWrite] := by decide +kernel

/-- Vectors M17, M19, M20. -/
theorem test_status_and_soft_reset :
    statusWord (hostInput (w32 0x10 0x00000002) { State.reset with done := true, err := true }) = 4 ∧
    hostInput (w32 0x0C 0x00000003) State.reset = { State.reset with responses := [.okayWrite] } ∧
    (hostInput (w32 0x0C 0x00000006) { State.reset with irqen := true }).irqen = false := by decide +kernel

theorem test_reset_memory_wf : State.reset.dmem.wf ∧ State.reset.lmem.wf := by decide

/-! ### Witnesses: the hypotheses of each statement can be met, clause by clause -/

theorem witness_IllegalWordCompletesWithItsError :
    (engineTurn (running 0x07) = true ∧ ((running 0x07).lcmd.extractLsb' 0 8).toNat ∉
      [0x00, 0x01, 0x02, 0x03, 0x04, 0x05, 0x06, 0x10, 0x11, 0x12, 0x13, 0x14, 0x15, 0x20, 0x21, 0x30]) ∧
    (engineTurn (running 0x110) = true ∧ (running 0x110).lcmd.getLsbD 8 = true ∧
      ((running 0x110).lcmd.extractLsb' 0 8).toNat ∉ [0x12, 0x13, 0x14, 0x15]) ∧
    (engineTurn (running 0x313) = true ∧ (running 0x313).lcmd.getLsbD 9 = true ∧
      ((running 0x313).lcmd.extractLsb' 0 8).toNat ∉ [0x12, 0x14]) ∧
    (engineTurn (running 0x412) = true ∧ (running 0x412).lcmd.extractLsb' 10 6 ≠ 0) ∧
    (engineTurn (running 0x10000) = true ∧ (running 0x10000).lcmd.extractLsb' 16 16 ≠ 0) := by decide +kernel

theorem witness_StepRunsTheDecodedCommand :
    ((running 0x04).busy = true ∧ (running 0x04).wait = 0 ∧ decode (running 0x04).lcmd = .ok .modpow) ∧
    ({ running 0x04 with wait := 5 }.busy = true ∧ { running 0x04 with wait := 5 }.inputs = []) := by decide +kernel

theorem witness_StepTakesTheOldestInput :
    ({ State.reset with inputs := [r32 0x10, .hardReset] }.inputs = r32 0x10 :: [.hardReset] ∧
      { State.reset with inputs := [r32 0x10, .hardReset] }.busy = false) ∧
    ({ running 0x04 with inputs := [r32 0x10], wait := 1 }.inputs = r32 0x10 :: [] ∧
      { running 0x04 with inputs := [r32 0x10], wait := 1 }.wait ≠ 0) ∧
    (State.reset.busy = false ∧ State.reset.inputs = []) := by decide +kernel

theorem witness_FailedCommandWritesNoMemory :
    ∃ t : State, exec .mul (ready [0xff] [0xff] [] 1) = .next t ∧ t.err = true :=
  ⟨_, rfl, by decide +kernel⟩

/-- A generated IV at 0x1000 and a result at 0x1800: offset 0x1008 lies outside both, 0x1807 inside the capacity but past
the result. -/
theorem witness_CommandsWriteOnlyTheirOutput :
    ∃ t : State, exec (.gostCfbEnc false true) (ready [0x54, 0x45] keyR ivR 16) = .next t ∧ t.reslen.toNat = 2 ∧
      (¬(0x1800 ≤ 0x1802 ∧ 0x1802 < 0x1800 + t.reslen.toNat)) ∧ ¬(0x1000 ≤ 0x1008 ∧ 0x1008 < 0x1000 + 8) :=
  ⟨_, rfl, by decide +kernel⟩

theorem witness_RangeErrorExactlyForUsedDescriptors :
    (∃ t : State, exec .mul outside = .next t ∧ t.errcode = 0x02) ∧
    (∃ t : State, exec .mul (ready [0xff] [0xff] [] 2) = .next t ∧ t.errcode ≠ 0x02) :=
  ⟨⟨_, rfl, by decide +kernel⟩, ⟨_, rfl, by decide +kernel⟩⟩

/-- Two states that differ in DMEM, IRQEN and CMD, but not in what is latched. -/
theorem witness_OutcomeDependsOnLatchAndDrawsOnly :
    let s := ready [0xff] [0xff] [] 2
    let s' := { ready [0xff] [0xff] [] 2 with irqen := true, cmd := 7, dmem := [(0x2000, 1)] }
    s.larg = s'.larg ∧ s.lmem = s'.lmem ∧ s.cfg = s'.cfg ∧ s.event = s'.event ∧ s.dmem.get? 1 = s'.dmem.get? 1 ∧
      s ≠ s' := by decide +kernel

theorem witness_MulFollowsItsRule :
    ¬Ranged .mul outside ∧
    (Ranged .mul (lens 513 1 0 0) ∧ (lens 513 1 0 0).cfg.maxBytes < length (lens 513 1 0 0) .a) ∧
    (Ranged .mul (lens 1 513 0 0) ∧ (lens 1 513 0 0).cfg.maxBytes < length (lens 1 513 0 0) .b) ∧
    (Ranged .mul (lens 512 512 0 1023) ∧ length (lens 512 512 0 1023) .a ≤ (lens 512 512 0 1023).cfg.maxBytes ∧
      length (lens 512 512 0 1023) .out < 512 + 512) ∧
    (Ranged .mul (lens 512 512 0 1024) ∧ length (lens 512 512 0 1024) .b ≤ (lens 512 512 0 1024).cfg.maxBytes ∧
      512 + 512 ≤ length (lens 512 512 0 1024) .out) := by decide +kernel

theorem witness_ModFollowsItsRule :
    ¬Ranged .mod outside ∧
    (Ranged .mod (lens 1025 0 1 1) ∧ 2 * (lens 1025 0 1 1).cfg.maxBytes < length (lens 1025 0 1 1) .a) ∧
    (Ranged .mod (lens 1024 0 513 1) ∧ (lens 1024 0 513 1).cfg.maxBytes < length (lens 1024 0 513 1) .m) ∧
    (Ranged .mod (lens 1024 0 0 1) ∧ bigint (lens 1024 0 0 1) .m = 0) ∧
    (Ranged .mod (ready [0x12] [] [0x01, 0x00] 1) ∧ bigint (ready [0x12] [] [0x01, 0x00] 1) .m ≠ 0 ∧
      length (ready [0x12] [] [0x01, 0x00] 1) .out < length (ready [0x12] [] [0x01, 0x00] 1) .m) ∧
    (Ranged .mod (ready [0x12] [] [0x01, 0x00] 2) ∧ bigint (ready [0x12] [] [0x01, 0x00] 2) .m ≠ 0 ∧
      length (ready [0x12] [] [0x01, 0x00] 2) .m ≤ length (ready [0x12] [] [0x01, 0x00] 2) .out) := by decide +kernel

/-- The clauses of MULMOD, MODPOW, RSA_ENC and RSA_DEC on the descriptors and sizes are the same; `i` is any of them. -/
theorem witness_three_operand_sizes :
    ∀ i ∈ ([.mulmod, .modpow, .rsaEnc, .rsaDec] : List Instr),
      ¬Ranged i outside ∧
      (Ranged i (lens 513 1 1 1) ∧ (lens 513 1 1 1).cfg.maxBytes < length (lens 513 1 1 1) .a) ∧
      (Ranged i (lens 512 513 1 1) ∧ (lens 512 513 1 1).cfg.maxBytes < length (lens 512 513 1 1) .b) ∧
      (Ranged i (lens 512 512 513 1) ∧ (lens 512 512 513 1).cfg.maxBytes < length (lens 512 512 513 1) .m) ∧
      (Ranged i (lens 512 512 0 1) ∧ bigint (lens 512 512 0 1) .m = 0) := by decide +kernel

theorem witness_MulmodFollowsItsRule :
    let s (cap : Word) := ready [0x12, 0x34] [0x56, 0x78] [0x0f, 0xff] cap
    (Ranged .mulmod (s 1) ∧ bigint (s 1) .m ≠ 0 ∧ length (s 1) .out < length (s 1) .m) ∧
    (Ranged .mulmod (s 2) ∧ bigint (s 2) .m ≠ 0 ∧ length (s 2) .m ≤ length (s 2) .out) := by decide +kernel

theorem witness_ModpowFollowsItsRule :
    let s (cap : Word) := ready [0x0a] [0x01] [0x00, 0x07] cap
    (Ranged .modpow (s 1) ∧ bigint (s 1) .m ≠ 0 ∧ length (s 1) .out < length (s 1) .m) ∧
    (Ranged .modpow (s 2) ∧ bigint (s 2) .m ≠ 0 ∧ length (s 2) .m ≤ length (s 2) .out) := by decide +kernel

/-- RSA with the modulus 3233: the input is the modulus itself, then one below it. -/
theorem witness_RsaFollowsItsRule :
    let s (m : Byte) (cap : Word) := ready [0x0c, m] [0x11] [0x0c, 0xa1] cap
    ∀ i ∈ ([.rsaEnc, .rsaDec] : List Instr),
      (Ranged i (s 0xa1 2) ∧ bigint (s 0xa1 2) .m ≠ 0 ∧ bigint (s 0xa1 2) .m ≤ bigint (s 0xa1 2) .a) ∧
      (Ranged i (s 0xa0 1) ∧ bigint (s 0xa0 1) .a < bigint (s 0xa0 1) .m ∧
        length (s 0xa0 1) .out < length (s 0xa0 1) .m) ∧
      (Ranged i (s 0xa0 2) ∧ bigint (s 0xa0 2) .a < bigint (s 0xa0 2) .m ∧
        length (s 0xa0 2) .m ≤ length (s 0xa0 2) .out) := by decide +kernel

theorem witness_GostEcbFollowsItsRule :
    ∀ i ∈ ([.gostEcbEnc, .gostEcbDec] : List Instr),
      ¬Ranged i outside ∧
      (Ranged i (lens 8 31 0 8) ∧ length (lens 8 31 0 8) .b ≠ 32) ∧
      (Ranged i (lens 7 32 0 8) ∧ length (lens 7 32 0 8) .b = 32 ∧ length (lens 7 32 0 8) .a % 8 ≠ 0) ∧
      (Ranged i (lens 16 32 0 15) ∧ length (lens 16 32 0 15) .b = 32 ∧ length (lens 16 32 0 15) .a % 8 = 0 ∧
        length (lens 16 32 0 15) .out < length (lens 16 32 0 15) .a) ∧
      (Ranged i (lens 16 32 0 16) ∧ length (lens 16 32 0 16) .b = 32 ∧ length (lens 16 32 0 16) .a % 8 = 0 ∧
        length (lens 16 32 0 16) .a ≤ length (lens 16 32 0 16) .out) := by decide +kernel

theorem witness_GostStreamEncFollowsItsRule :
    ∀ env ivgen : Bool, ∀ i ∈ ([.gostCfbEnc env ivgen, .gostOfbEnc env ivgen] : List Instr),
      ¬Ranged i outside ∧
      (Ranged i (lens 4 31 8 12) ∧ length (lens 4 31 8 12) .b ≠ 32) ∧
      (Ranged i (lens 4 32 7 12) ∧ length (lens 4 32 7 12) .b = 32 ∧ length (lens 4 32 7 12) .m ≠ 8) ∧
      (Ranged i (lens 4 32 8 3) ∧ length (lens 4 32 8 3) .b = 32 ∧ length (lens 4 32 8 3) .m = 8 ∧
        length (lens 4 32 8 3) .out < length (lens 4 32 8 3) .a + (if env then 8 else 0)) ∧
      (Ranged i (lens 4 32 8 12) ∧ length (lens 4 32 8 12) .b = 32 ∧ length (lens 4 32 8 12) .m = 8 ∧
        length (lens 4 32 8 12) .a + (if env then 8 else 0) ≤ length (lens 4 32 8 12) .out) := by
  intro env ivgen
  cases env <;> cases ivgen <;> decide +kernel

theorem witness_GostStreamDecFollowsItsRule :
    ∀ env : Bool, ∀ i ∈ ([.gostCfbDec env, .gostOfbDec env] : List Instr),
      ¬Ranged i outside ∧
      (Ranged i (lens 8 31 8 12) ∧ length (lens 8 31 8 12) .b ≠ 32) ∧
      (Ranged i (lens 7 32 8 12) ∧ length (lens 7 32 8 12) .b = 32 ∧ length (lens 7 32 8 12) .a < 8) ∧
      (Ranged i (lens 8 32 7 12) ∧ length (lens 8 32 7 12) .b = 32 ∧ length (lens 8 32 7 12) .m ≠ 8) ∧
      (Ranged i (lens 12 32 8 3) ∧ (if env then 8 ≤ length (lens 12 32 8 3) .a else length (lens 12 32 8 3) .m = 8) ∧
        length (lens 12 32 8 3) .out <
          (if env then (operand (lens 12 32 8 3) .a).drop 8 else operand (lens 12 32 8 3) .a).length) ∧
      (Ranged i (lens 8 32 8 8) ∧ (if env then 8 ≤ length (lens 8 32 8 8) .a else length (lens 8 32 8 8) .m = 8) ∧
        (if env then (operand (lens 8 32 8 8) .a).drop 8 else operand (lens 8 32 8 8) .a).length ≤
          length (lens 8 32 8 8) .out) := by decide +kernel

/-- The key is "201", or "13", which names a position that does not exist. -/
theorem witness_PermEncFollowsItsRule :
    let s (key : List Byte) (cap : Word) := ready [0x61, 0x62, 0x63, 0x64, 0x65, 0x66] key [] cap
    ¬Ranged .permEnc outside ∧
    (Ranged .permEnc (s [0x31, 0x33] 9) ∧ ¬KeyValid (operand (s [0x31, 0x33] 9) .b)) ∧
    (Ranged .permEnc (s key201 8) ∧ KeyValid (operand (s key201 8) .b) ∧ length (s key201 8) .out < 6 + (3 - 6 % 3)) ∧
    (Ranged .permEnc (s key201 9) ∧ KeyValid (operand (s key201 9) .b) ∧ 6 + (3 - 6 % 3) ≤ length (s key201 9) .out) := by
  decide +kernel

/-- `p1`, `p2`: inputs whose inverse transposition ends in a valid and in an invalid padding (vectors P2v and P17v). -/
theorem witness_PermDecFollowsItsRule :
    let s (x key : List Byte) (cap : Word) := ready x key [] cap
    let p1 : List Byte := [0x62, 0x63, 0x61, 0x03, 0x03, 0x03]
    let p2 : List Byte := [0x62, 0x63, 0x61]
    ¬Ranged .permDec outside ∧
    (Ranged .permDec (s p1 [0x31, 0x31] 9) ∧ ¬KeyValid (operand (s p1 [0x31, 0x31] 9) .b)) ∧
    (Ranged .permDec (s [] key201 9) ∧ KeyValid (operand (s [] key201 9) .b) ∧ length (s [] key201 9) .a = 0) ∧
    (Ranged .permDec (s [0x61] key201 9) ∧ KeyValid (operand (s [0x61] key201 9) .b) ∧
      length (s [0x61] key201 9) .a % length (s [0x61] key201 9) .b ≠ 0) ∧
    (length (s p2 key201 9) .a ≠ 0 ∧ length (s p2 key201 9) .a % length (s p2 key201 9) .b = 0 ∧
      permInvert key201 p2 = [0x61, 0x62, 0x63] ∧ ¬PaddingValid [0x61, 0x62, 0x63] 3) ∧
    (permInvert key201 p1 = [0x61, 0x62, 0x63, 0x03, 0x03, 0x03] ∧
      PaddingValid [0x61, 0x62, 0x63, 0x03, 0x03, 0x03] 3 ∧ length (s p1 key201 2) .out < 6 - 3 ∧
      6 - 3 ≤ length (s p1 key201 3) .out) := by decide +kernel

theorem witness_RngFillFollowsItsRule :
    ¬Ranged .rngFill outside ∧ Ranged .rngFill { State.reset with larg := #v[0, 0, 0, 0, 0, 0, 0x4000, 0] } := by
  decide +kernel

theorem witness_ModPowIsThePowerModulo : 0 < 1 ∧ modPow 5 3 1 = 0 := by decide +kernel

/-- The encryption of 65 under the textbook key of vector B25. -/
def rsaSent : State := ready [0x00, 0x41] [0x11] [0x0c, 0xa1] 2

/-- The state after it (vector B25: the result is `0a e6`). -/
def rsaDone : State := complete (rsaOutcome .encodingError rsaSent) rsaSent

/-- The decryption of its result (vector B26). -/
def rsaBack : State := ready [0x0a, 0xe6] [0x0a, 0xc1] [0x0c, 0xa1] 2

theorem witness_RsaRoundTrip :
    Nat.Prime 61 ∧ Nat.Prime 53 ∧ exec .rsaEnc rsaSent = .next rsaDone ∧
    ((61 : Nat) ≠ 53 ∧ 17 * 2753 % Nat.lcm (61 - 1) (53 - 1) = 1 % Nat.lcm (61 - 1) (53 - 1) ∧
      bigint rsaSent .m = 61 * 53 ∧ bigint rsaSent .b = 17 ∧ rsaDone.err = false ∧
      ([0x0a, 0xe6] : List Byte).length = rsaDone.reslen.toNat ∧
      (∀ j < 2, rsaDone.dmem.get? (offset rsaSent .out + j) = ([0x0a, 0xe6] : List Byte)[j]?) ∧
      Ranged .rsaDec rsaBack ∧ operand rsaBack .a = [0x0a, 0xe6] ∧ bigint rsaBack .b = 2753 ∧
      operand rsaBack .m = operand rsaSent .m ∧ rsaBack.cfg = rsaSent.cfg ∧
      length rsaBack .b ≤ rsaBack.cfg.maxBytes ∧ length rsaBack .m ≤ length rsaBack .out) :=
  ⟨by norm_num, by norm_num, rfl, by decide +kernel⟩

theorem witness_GostEcbRoundTrip : twoBlocks.length % 8 = 0 := by decide

theorem witness_PermRoundTrip : KeyValid key201 ∧ KeyValid [0x31, 0x30] ∧
    KeyValid [0x39, 0x38, 0x37, 0x36, 0x35, 0x34, 0x33, 0x32, 0x31, 0x30] := by decide

theorem witness_StartWriteFollowsItsRule :
    ((0x1 : Word).getLsbD 1 = false ∧ (0x1 : Word).getLsbD 0 = true ∧ State.reset.busy = false) ∧
    ((0x5 : Word).getLsbD 1 = false ∧ (0x5 : Word).getLsbD 0 = true ∧ (running 0).busy = true) ∧
    ((0x4 : Word).getLsbD 1 = false ∧ (0x4 : Word).getLsbD 0 = false) := by decide +kernel

theorem witness_SoftResetFollowsItsRule :
    (0x7 : Word).getLsbD 1 = true ∧ State.reset.busy = false ∧ (running 0x212).busy = true ∧
    (running 0x212).lcmd ∈ ([0x00000212, 0x00000312, 0x00000214, 0x00000314] : List Word) ∧
    (running 0x12).lcmd ∉ ([0x00000212, 0x00000312, 0x00000214, 0x00000314] : List Word) := by decide +kernel

theorem witness_HardResetFollowsItsRule : ∃ t : State, hostInput .hardReset (running 0x04) = t ∧ t.busy = false :=
  ⟨_, rfl, by decide +kernel⟩

theorem witness_ReadOnlyRegistersIgnoreWrites :
    ([0x00, 0x04, 0x08, 0x14, 0x18] : List WindowOffset).map (fun a => decide (a.toNat % 4 = 0 ∧
      a.toNat ∈ [0x00, 0x04, 0x08, 0x14, 0x18])) = List.replicate 5 true ∧
    ([0x40, 0xFC] : List WindowOffset).map (fun a => decide (a.toNat % 4 = 0 ∧ 0x40 ≤ a.toNat ∧ a.toNat ≤ 0xFC)) =
      List.replicate 2 true := by decide +kernel

theorem witness_DmemWriteThenReadWhileIdle :
    State.reset.busy = false ∧
    ∀ x ∈ ([(0x13FFC, .word), (0x13FFE, .half), (0x13FFF, .byte), (0x10000, .word)] : List (WindowOffset × Width)),
      0x10000 ≤ x.1.toNat ∧ (x.1.toNat - 0x10000) % x.2.bytes = 0 ∧
        x.1.toNat - 0x10000 + x.2.bytes ≤ State.reset.cfg.dmemBytes := by decide +kernel

theorem witness_MixedWidthConsequence : State.reset.busy = false ∧ 4 ≤ State.reset.cfg.dmemBytes := by decide +kernel

theorem witness_DmemWriteWhileBusyIsDropped :
    (running 0x04).busy = true ∧
    ∀ x ∈ ([(0x13FFC, .word), (0x13FFE, .half), (0x13FFF, .byte)] : List (WindowOffset × Width)),
      0x10000 ≤ x.1.toNat ∧ (x.1.toNat - 0x10000) % x.2.bytes = 0 ∧
        x.1.toNat - 0x10000 + x.2.bytes ≤ (running 0x04).cfg.dmemBytes := by decide +kernel

/-- One transaction for each clause, at the boundary addresses. -/
theorem witness_BadAccessesGetErrorAndNoEffect :
    (((0xFC : WindowOffset).toNat < 0x100 ∧ Width.half.bytes ≠ 4) ∧
      ((0xFE : WindowOffset).toNat < 0x100 ∧ (0xFE : WindowOffset).toNat % 4 ≠ 0)) ∧
    ((∃ i < Width.word.bytes, 0x100 ≤ (0x100 : WindowOffset).toNat + i ∧ (0x100 : WindowOffset).toNat + i < 0x10000) ∧
      (∃ i < Width.byte.bytes, 0x100 ≤ (0xFFFF : WindowOffset).toNat + i ∧ (0xFFFF : WindowOffset).toNat + i < 0x10000)) ∧
    (∃ i < Width.byte.bytes, 0x10000 + State.reset.cfg.dmemBytes ≤ (0x14000 : WindowOffset).toNat + i) ∧
    (0x10000 ≤ (0x10001 : WindowOffset).toNat ∧ ((0x10001 : WindowOffset).toNat - 0x10000) % Width.half.bytes ≠ 0) := by
  decide +kernel

theorem witness_BusyDmemReadsAreDraws :
    let s := ready [0xff] [] [] 0
    let s' := ready [0x00, 0x01] [] [] 0
    s.busy = true ∧ s'.busy = true ∧ s.cfg = s'.cfg ∧ s.event = s'.event ∧ s.dmem ≠ s'.dmem ∧
      0x10000 ≤ (0x10000 : WindowOffset).toNat := by decide +kernel

theorem witness_RegisterReadsReturnTheRegister : (ready [] [] [] 9).cfg.wf = true ∧ (ready [] [] [] 9).larg[7] = 9 := by
  decide +kernel

theorem witness_InterruptLevel :
    (∃ t : State, exec .nop { State.reset with irqen := true } = .next t ∧ irq t = true) ∧
    (0xE : Word).getLsbD 1 = true ∧ ((0x5 : Word).getLsbD 0 = true ∧ State.reset.busy = false) ∧
    (0x2 : Word).getLsbD 1 = true ∧ (0x0 : Word).getLsbD 2 = false :=
  ⟨⟨_, rfl, by decide +kernel⟩, by decide +kernel⟩

/-- A state with a command in progress that meets the invariant, and whose step completes the command. -/
theorem witness_StepKeepsTheInvariant :
    (ready [0xff] [0xff] [] 2).Inv ∧ ∃ t : State, step (ready [0xff] [0xff] [] 2) = .next t ∧ t.done = true :=
  ⟨⟨by decide +kernel, by decide +kernel, by decide +kernel, by decide +kernel, by decide +kernel, by decide +kernel⟩,
    ⟨_, rfl, by decide +kernel⟩⟩

theorem witness_EveryCommandEnds : (running 0x04).busy = true ∧ { running 0x04 with wait := 3 }.busy = true := by
  decide +kernel

/-- The three cases: a host read lets the command go on, the engine completes it, a soft reset abandons it. -/
theorem witness_OnlyCompletionOrResetEndsACommand :
    (∃ t : State, step { running 0x00 with wait := 1, inputs := [r32 0x10] } = .next t ∧ t.busy = true) ∧
    (∃ t : State, step (running 0x00) = .next t ∧ t.busy = false ∧ t.done = true) ∧
    (∃ t : State, step { running 0x00 with wait := 1, inputs := [w32 0x0C 2] } = .next t ∧ t.busy = false ∧
      t.done = false) :=
  ⟨⟨_, rfl, by decide +kernel⟩, ⟨_, rfl, by decide +kernel⟩, ⟨_, rfl, by decide +kernel⟩⟩

theorem witness_WerrChangesOnlyAsItsRuleSays :
    (∃ t : State, step { State.reset with werr := true, inputs := [w32 0x10 8] } = .next t ∧ t.werr = false) ∧
    (∃ t : State, step { running 0x00 with wait := 1, inputs := [w32 0x3C 8] } = .next t ∧ t.werr = true) ∧
    (∃ t : State, step { running 0x00 with wait := 1, inputs := [w32 0x0C 1] } = .next t ∧ t.werr = true) ∧
    (∃ t : State, step { running 0x00 with wait := 1, inputs := [w8 0x10000 1] } = .next t ∧ t.werr = true) :=
  ⟨⟨_, rfl, by decide +kernel⟩, ⟨_, rfl, by decide +kernel⟩, ⟨_, rfl, by decide +kernel⟩, ⟨_, rfl, by decide +kernel⟩⟩

theorem witness_OnlyTheHostWritesCmdAndArg :
    (∃ t : State, step { State.reset with inputs := [w32 0x1C 0x30] } = .next t ∧ t.cmd ≠ State.reset.cmd) ∧
    (∃ t : State, step { State.reset with inputs := [w32 0x3C 8] } = .next t ∧ t.arg[7] ≠ State.reset.arg[7]) :=
  ⟨⟨_, rfl, by decide +kernel⟩, ⟨_, rfl, by decide +kernel⟩⟩

/-- Every pair, at the last byte its length admits; the pair `a` of a one-byte, `m` of a two-byte operand. -/
theorem witness_CommandsReadTheirLatchedOperands :
    let s := ready [0xff] [0x11, 0x12] [0x0c, 0xa1] 2
    (0 < length s .a ∧ s.lmem.get? (offset s .a + 0) = some 0xff) ∧
    (1 < length s .b ∧ s.lmem.get? (offset s .b + 1) = some 0x12) ∧
    (1 < length s .m ∧ s.lmem.get? (offset s .m + 1) = some 0xa1) ∧
    (0 < length { s with larg := #v[0, 1, 0, 1, 0, 1, 0, 1] } .out ∧
      s.lmem.get? (offset { s with larg := #v[0, 1, 0, 1, 0, 1, 0, 1] } .out + 0) = some 0xff) := by decide +kernel

/-- Each width, at the last aligned offset of DMEM, over bytes written with another width (as in vectors M3 and M4). -/
theorem witness_DmemReadWhileIdleReturnsTheBytes :
    let s := hostInput (w16 0x13FFE 0xBEEF) (hostInput (w32 0x13FFC 0x01020304) State.reset)
    let x (i : Nat) : Byte := ([0x04, 0x03, 0xEF, 0xBE] : List Byte).getD i 0
    s.busy = false ∧
    (∀ i < Width.word.bytes, s.dmem.get? ((0x13FFC : WindowOffset).toNat - 0x10000 + i) = some (x i)) ∧
    (∀ i < Width.half.bytes, s.dmem.get? ((0x13FFE : WindowOffset).toNat - 0x10000 + i) = some (x (2 + i))) ∧
    (∀ i < Width.byte.bytes, s.dmem.get? ((0x13FFF : WindowOffset).toNat - 0x10000 + i) = some (x (3 + i))) ∧
    ((0x13FFC : WindowOffset).toNat - 0x10000) % 4 = 0 ∧
    (0x13FFC : WindowOffset).toNat - 0x10000 + 4 ≤ s.cfg.dmemBytes := by decide +kernel

/-- Vectors M3 and M4: a word read of bytes that a half and a word write left. -/
theorem test_dmem_read_other_width :
    (hostInput (r32 0x10000) (hostInput (w16 0x10002 0xBEEF) (hostInput (w32 0x10000 0x01020304) State.reset))).responses =
      [.okayRead 0xBEEF0304, .okayWrite, .okayWrite] := by decide +kernel

end Sys2Proof.Tests
end

section
/-! The parameters along a run (R6, R54, R400) and what a command reads (R9, R10, R93, R94). -/

namespace Sys2Proof.Machine

/-! ### No step changes a parameter -/

@[simp] theorem writeCtrl_cfg (v : Word) (s : State) : (writeCtrl v s).cfg = s.cfg := by
  unfold writeCtrl
  split
  · split <;> simp
  · rfl

@[simp] theorem regWrite_cfg (v : Word) (s : State) (r : Reg) : (regWrite v s r).cfg = s.cfg := by
  cases r with
  | ctrl => rw [regWrite]; split <;> simp
  | status => exact clearStatus_cfg v s
  | cmd => rw [regWrite]; split <;> simp
  | arg k => rw [regWrite]; split <;> simp
  | hwid | cfg0 | cfg1 | errcode | reslen | reserved => rfl

@[simp] theorem dmemWrite_cfg (v : Word) (o n : Nat) (s : State) : (dmemWrite v o n s).cfg = s.cfg := by
  unfold dmemWrite; split <;> simp

@[simp] theorem busTransaction_cfg (t : Transaction) (s : State) : (busTransaction t s).cfg = s.cfg := by
  obtain ⟨-, h⟩ | ⟨_, -, -, h⟩ | ⟨_, _, -, -, h⟩ | ⟨_, -, -, h⟩ | ⟨_, _, -, -, h⟩ := busTransaction_cases t s <;>
    simp [h]

@[simp] theorem hostInput_cfg (i : Input) (s : State) : (hostInput i s).cfg = s.cfg := by
  cases i with
  | bus t => exact busTransaction_cfg t s
  | hardReset => exact hardReset_cfg s

@[simp] theorem hostTurn_cfg (s : State) : (hostTurn s).cfg = s.cfg := by
  obtain ⟨-, h⟩ | ⟨_, _, -, h⟩ := hostTurn_cases s <;> simp [h]

/-- The parameters are fixed (R6): neither a completion nor a host input changes them. -/
theorem step_cfg {s t : State} (h : step s = .next t) : t.cfg = s.cfg := by
  obtain ⟨-, rfl⟩ | ⟨-, rfl⟩ := step_cases h
  · exact (complete_kept (latchedOutcome s) s).cfg
  · exact hostTurn_cfg s

/-! ### Runs -/

/-- Every state has a next one: neither the engine nor the host's turn can fault or be refused (R400). -/
theorem exists_step_eq_next (s : State) : ∃ t : State, step s = .next t := by
  unfold step
  split
  · exact ⟨_, engineStep_eq s⟩
  · exact ⟨_, rfl⟩

theorem run_succ_of_step {s t : State} (h : step s = .next t) (n : Nat) :
    Host.Core.run Sys2Proof.core (n + 1) s = Host.Core.run Sys2Proof.core n t := by
  simp only [Host.Core.run, Sys2Proof.core, h]

/-- The induction along a run: every run goes on, and what every step keeps holds of its last state. -/
theorem run_keeps {P : State → Prop} (hstep : ∀ s t : State, step s = .next t → P s → P t) (n : Nat) (s : State)
    (hs : P s) : ∃ t : State, Host.Core.run Sys2Proof.core n s = .next t ∧ P t := by
  induction n generalizing s with
  | zero => exact ⟨s, rfl, hs⟩
  | succ n ih =>
    obtain ⟨u, hu⟩ := exists_step_eq_next s
    rw [run_succ_of_step hu]
    exact ih u (hstep s u hu hs)

/-! ### Byte strings and operands -/

/-- One more byte at the end of a string multiplies its value by 256 and adds the byte (R9). -/
theorem be_append_singleton (x : List Byte) (b : Byte) : be (x ++ [b]) = be x * 256 + b.toNat := by
  induction x with
  | nil => simp [be_cons]
  | cons c cs ih =>
    rw [List.cons_append, be_cons, be_cons, ih, List.length_append, List.length_singleton]
    ring

/-- A specified byte of the latched memory is read as its value, at its place in the operand (R10, R93, R94). -/
theorem operand_getElem?_of_get? {s : State} {p : Pair} {i : Nat} {b : Byte} (hi : i < length s p)
    (hb : s.lmem.get? (offset s p + i) = some b) : (operand s p)[i]? = some b := by
  rw [operand, readFor, read_getElem?, if_pos hi, byte_of_get? hb]

end Sys2Proof.Machine

open Sys2Proof.Machine

/-- Settles O53: every step answers a next state (R400) with the same parameters (R6), so every run does, by induction on
its length. -/
theorem everyRunIsSafe : Obligations.EveryRunIsSafe := by
  intro s n
  have keeps : ∀ t u : State, step t = .next u → t.cfg = s.cfg → u.cfg = s.cfg :=
    fun _ _ h ht => (step_cfg h).trans ht
  exact run_keeps keeps n s rfl

/-- Settles O58: the pairs are the latched words by definition (R124); a read inside a command sees the latched memory
(R94), and `be` is the big-endian value (R9). -/
theorem commandsReadTheirLatchedOperands : Obligations.CommandsReadTheirLatchedOperands := by
  intro s
  refine ⟨⟨rfl, rfl, rfl, rfl, rfl, rfl, rfl, rfl⟩, fun p => ⟨operand_length s p, rfl, ?_⟩, be_nil, be_append_singleton⟩
  intro i hi b hb
  exact operand_getElem?_of_get? hi hb
end

section
/-! The register window by offset (R33, R81, R82), and what one host input can do, said once for every input. -/

namespace Sys2Proof.Machine

/-! ### Registers by offset -/

/-- CTRL is found at one offset only; so are STATUS, CMD and each ARGk below (R33). -/
theorem ofOffset_eq_ctrl {o : Nat} (h : Reg.ofOffset o = .ctrl) : o = 0x0C := by
  unfold Reg.ofOffset at h; grind

theorem ofOffset_eq_status {o : Nat} (h : Reg.ofOffset o = .status) : o = 0x10 := by
  unfold Reg.ofOffset at h; grind

theorem ofOffset_eq_cmd {o : Nat} (h : Reg.ofOffset o = .cmd) : o = 0x1C := by
  unfold Reg.ofOffset at h; grind

theorem ofOffset_eq_arg {o : Nat} {k : Fin 8} (ho : o % 4 = 0) (h : Reg.ofOffset o = .arg k) :
    o = 0x20 + 4 * k.val := by
  unfold Reg.ofOffset at h; grind

theorem ofOffset_arg (k : Fin 8) : Reg.ofOffset (0x20 + 4 * k.val) = .arg k := by
  revert k; decide

theorem ofOffset_reserved {o : Nat} (h : 0x40 ≤ o) : Reg.ofOffset o = .reserved := by
  unfold Reg.ofOffset; grind

/-- An aligned 32-bit write in the register window writes the register at its offset (R81, R82). -/
theorem hostInput_w32 {a : WindowOffset} (ha : a.toNat < 0x100) (h4 : a.toNat % 4 = 0) (v : Word) (s : State) :
    hostInput (w32 a v) s = respond .okayWrite (regWrite v s (Reg.ofOffset a.toNat)) := by
  simp [hostInput, w32, busTransaction, target, ha, h4]

/-- An aligned 32-bit read in the register window returns the register at its offset (R81, R82). -/
theorem hostInput_r32 {a : WindowOffset} (ha : a.toNat < 0x100) (h4 : a.toNat % 4 = 0) (s : State) :
    hostInput (r32 a) s = respond (.okayRead (regRead s (Reg.ofOffset a.toNat))) s := by
  simp [hostInput, r32, busTransaction, target, ha, h4]

theorem hostInput_writeCtrl (v : Word) (s : State) :
    hostInput (w32 0x0C v) s = respond .okayWrite (if v.getLsbD 1 then softReset s else writeCtrl v s) :=
  hostInput_w32 (by decide) (by decide) v s

theorem hostInput_writeStatus (v : Word) (s : State) :
    hostInput (w32 0x10 v) s = respond .okayWrite (clearStatus v s) :=
  hostInput_w32 (by decide) (by decide) v s

theorem hostInput_writeCmd (v : Word) (s : State) :
    hostInput (w32 0x1C v) s = respond .okayWrite (if s.busy then dropWrite s else { s with cmd := v }) :=
  hostInput_w32 (by decide) (by decide) v s

/-- The window offset of ARGk, as a number (R33). -/
theorem argOffset_toNat (k : Fin 8) : (BitVec.ofNat 17 (0x20 + 4 * k.val)).toNat = 0x20 + 4 * k.val := by
  rw [BitVec.toNat_ofNat, Nat.mod_eq_of_lt (by omega)]

theorem hostInput_writeArg (k : Fin 8) (v : Word) (s : State) :
    hostInput (w32 (BitVec.ofNat 17 (0x20 + 4 * k.val)) v) s =
      respond .okayWrite (if s.busy then dropWrite s else { s with arg := s.arg.set k v }) := by
  have ha := argOffset_toNat k
  rw [hostInput_w32 (by omega) (by omega), ha, ofOffset_arg, regWrite]

/-! ### What one host input can do -/

/-- The effects of one host input, one constructor per rule: the input it takes and the state it leaves. -/
inductive HostEffect (s : State) : Input → State → Prop
  /-- the hard reset (R500) -/
  | hardReset : HostEffect s .hardReset (hardReset s)
  /-- CTRL with SRST = 1 (R38) -/
  | softReset (v : Word) (hv : v.getLsbD 1 = true) : HostEffect s (w32 0x0C v) (respond .okayWrite (softReset s))
  /-- START while idle (R37) -/
  | start (v : Word) (hsrst : v.getLsbD 1 = false) (hstart : v.getLsbD 0 = true) (hidle : s.busy = false) :
      HostEffect s (w32 0x0C v) (respond .okayWrite (startCommand { s with irqen := v.getLsbD 2 }))
  /-- START while BUSY (R37, R43) -/
  | startDropped (v : Word) (hsrst : v.getLsbD 1 = false) (hstart : v.getLsbD 0 = true) (hbusy : s.busy = true) :
      HostEffect s (w32 0x0C v) (respond .okayWrite (dropWrite { s with irqen := v.getLsbD 2 }))
  /-- CTRL with neither START nor SRST (R39) -/
  | irqen (v : Word) (hsrst : v.getLsbD 1 = false) (hstart : v.getLsbD 0 = false) :
      HostEffect s (w32 0x0C v) (respond .okayWrite { s with irqen := v.getLsbD 2 })
  /-- STATUS (R40 to R43) -/
  | status (v : Word) : HostEffect s (w32 0x10 v) (respond .okayWrite (clearStatus v s))
  /-- CMD while idle (R47) -/
  | cmd (v : Word) (hidle : s.busy = false) : HostEffect s (w32 0x1C v) (respond .okayWrite { s with cmd := v })
  /-- ARGk while idle (R48) -/
  | arg (k : Fin 8) (v : Word) (hidle : s.busy = false) :
      HostEffect s (w32 (BitVec.ofNat 17 (0x20 + 4 * k.val)) v) (respond .okayWrite { s with arg := s.arg.set k v })
  /-- DMEM while idle (R90) -/
  | dmem (a : WindowOffset) (w : Width) (v : Word) (hidle : s.busy = false) (ha : 0x10000 ≤ a.toNat)
      (hin : a.toNat - 0x10000 + w.bytes ≤ s.cfg.dmemBytes) :
      HostEffect s (.bus ⟨a, w, .write v⟩)
        (respond .okayWrite { s with dmem := s.dmem.write (a.toNat - 0x10000) (toLE w.bytes v) })
  /-- CMD, ARG or DMEM while BUSY (R43) -/
  | dropped (a : WindowOffset) (w : Width) (v : Word) (hbusy : s.busy = true)
      (ha : (0x1C ≤ a.toNat ∧ a.toNat ≤ 0x3C) ∨ 0x10000 ≤ a.toNat) :
      HostEffect s (.bus ⟨a, w, .write v⟩) (respond .okayWrite (dropWrite s))
  /-- a DMEM read (R89) -/
  | draw (t : Transaction) (r : Response) : HostEffect s (.bus t) (respond r (countDraw s))
  /-- an ERROR, a register read, or a write of a read-only or reserved register (R34, R91, R406) -/
  | responseOnly (t : Transaction) (r : Response) : HostEffect s (.bus t) (respond r s)

theorem ctrlWrite_effect (v : Word) (s : State) : HostEffect s (w32 0x0C v) (hostInput (w32 0x0C v) s) := by
  rw [hostInput_writeCtrl, writeCtrl]
  split_ifs with hsrst hstart hbusy
  · exact .softReset v hsrst
  · exact .startDropped v (by simpa using hsrst) hstart hbusy
  · exact .start v (by simpa using hsrst) hstart (by simpa using hbusy)
  · exact .irqen v (by simpa using hsrst) (by simpa using hstart)

theorem cmdWrite_effect (v : Word) (s : State) : HostEffect s (w32 0x1C v) (hostInput (w32 0x1C v) s) := by
  rw [hostInput_writeCmd]
  split_ifs with hbusy
  · exact .dropped _ _ v hbusy (.inl (by decide))
  · exact .cmd v (by simpa using hbusy)

theorem argWrite_effect (k : Fin 8) (v : Word) (s : State) :
    HostEffect s (w32 (BitVec.ofNat 17 (0x20 + 4 * k.val)) v)
      (hostInput (w32 (BitVec.ofNat 17 (0x20 + 4 * k.val)) v) s) := by
  rw [hostInput_writeArg]
  split_ifs with hbusy
  · have ha := argOffset_toNat k
    exact .dropped _ _ v hbusy (.inl (by omega))
  · exact .arg k v (by simpa using hbusy)

theorem registerWrite_effect {a : WindowOffset} (ha : a.toNat < 0x100) (h4 : a.toNat % 4 = 0) (v : Word) (s : State) :
    HostEffect s (w32 a v) (hostInput (w32 a v) s) := by
  cases hr : Reg.ofOffset a.toNat with
  | ctrl =>
    obtain rfl : a = 0x0C := BitVec.eq_of_toNat_eq (ofOffset_eq_ctrl hr)
    exact ctrlWrite_effect v s
  | status =>
    obtain rfl : a = 0x10 := BitVec.eq_of_toNat_eq (ofOffset_eq_status hr)
    exact hostInput_writeStatus v s ▸ .status v
  | cmd =>
    obtain rfl : a = 0x1C := BitVec.eq_of_toNat_eq (ofOffset_eq_cmd hr)
    exact cmdWrite_effect v s
  | arg k =>
    obtain rfl : a = BitVec.ofNat 17 (0x20 + 4 * k.val) :=
      BitVec.eq_of_toNat_eq ((ofOffset_eq_arg h4 hr).trans (argOffset_toNat k).symm)
    exact argWrite_effect k v s
  | hwid | cfg0 | cfg1 | errcode | reslen | reserved =>
    rw [hostInput_w32 ha h4, hr]
    exact .responseOnly _ _

theorem dmemWrite_effect {a : WindowOffset} {w : Width} {s : State} (ha : 0x10000 ≤ a.toNat)
    (hin : a.toNat - 0x10000 + w.bytes ≤ s.cfg.dmemBytes) (v : Word) :
    HostEffect s (.bus ⟨a, w, .write v⟩) (respond .okayWrite (dmemWrite v (a.toNat - 0x10000) w.bytes s)) := by
  unfold dmemWrite
  split_ifs with hbusy
  · exact .dropped a w v hbusy (.inr ha)
  · exact .dmem a w v (by simpa using hbusy) ha hin

/-- Every host input has one of the effects of `HostEffect`. -/
theorem hostInput_effect (x : Input) (s : State) : HostEffect s x (hostInput x s) := by
  cases x with
  | hardReset => exact .hardReset
  | bus t =>
    change HostEffect s (.bus t) (busTransaction t s)
    obtain ⟨-, h⟩ | ⟨_, -, -, h⟩ | ⟨r, v, ht, hd, h⟩ | ⟨_, -, -, h⟩ | ⟨o, v, ht, hd, h⟩ := busTransaction_cases t s
    · exact h ▸ .responseOnly t _
    · exact h ▸ .responseOnly t _
    · obtain ⟨ha, hw, h4, -⟩ := target_register ht
      obtain ⟨a, w, d⟩ := t
      subst hw hd
      exact registerWrite_effect ha h4 v s
    · exact h ▸ .draw t _
    · obtain ⟨ha, ho, -, hin⟩ := target_dmem ht
      obtain ⟨a, w, d⟩ := t
      subst hd
      rw [h, ho]
      exact dmemWrite_effect ha (ho ▸ hin) v

/-- What one step can do: complete the command in progress, nothing, or the effect of the host's oldest input (R92). -/
theorem step_effect {s t : State} (h : step s = .next t) :
    (engineTurn s = true ∧ t = complete (latchedOutcome s) s) ∨ t = s ∨
      (engineTurn s = false ∧ ∃ x rest, s.inputs = x :: rest ∧ HostEffect (takeInput rest s) x t) := by
  obtain hengine | ⟨hturn, rfl⟩ := step_cases h
  · exact .inl hengine
  · obtain ⟨-, hnone⟩ | ⟨x, rest, hx, hhost⟩ := hostTurn_cases s
    · exact .inr (.inl hnone)
    · exact .inr (.inr ⟨hturn, x, rest, hx, hhost ▸ hostInput_effect x _⟩)

end Sys2Proof.Machine
end

section
/-! The invariant: every completion and every host input keeps it (R41, R50, R51, R94, R403, R511). -/

namespace Sys2Proof.Machine

/-- The BUSY clauses say nothing of an idle block: its memories and ERRCODE are all that is in question. -/
theorem inv_of_idle {s : State} (hidle : s.busy = false) (herr : s.errcode ∈ legalErrcodes)
    (hd : s.dmem.inside s.cfg.dmemBytes) (hl : s.lmem.inside s.cfg.dmemBytes) : s.Inv where
  dmem_inside := hd
  lmem_inside := hl
  done_idle := fun _ => hidle
  errcode_legal := herr
  busy_clear := by simp [hidle]
  busy_latched := by simp [hidle]

theorem zero_mem_legalErrcodes : 0 ∈ legalErrcodes := by decide

/-! ### Completions -/

theorem out_mem_usedPairs {i : Instr} (h : i ≠ .nop) : .out ∈ usedPairs i := by
  cases i with
  | nop => exact absurd rfl h
  | gostCfbDec env | gostOfbDec env => cases env <;> decide
  | _ => simp [usedPairs]

theorem m_mem_usedPairs {i : Instr} (h : generatesIv i = true) : .m ∈ usedPairs i := by
  cases i with
  | gostCfbEnc env ivgen | gostOfbEnc env ivgen => simp [usedPairs]
  | _ => cases h

/-- A successful commit writes inside DMEM: its descriptors are valid and its strings fit them (R93, R95). NOP checks no
descriptor and writes nothing (R330). -/
theorem commitMemory_inside {i : Instr} {s : State} {r : Success} (h : outcome i s = .ok r)
    (hs : s.dmem.inside s.cfg.dmemBytes) : (commitMemory r s).inside s.cfg.dmemBytes := by
  by_cases hi : i = .nop
  · subst hi
    cases h
    simpa [commitMemory] using hs
  · obtain ⟨hranged, hfits, hiv⟩ := outcome_ok h
    have hout : offset s .out + length s .out ≤ s.cfg.dmemBytes := hranged .out (out_mem_usedPairs hi)
    refine write_inside ?_ (Nat.le_trans (Nat.add_le_add_left hfits _) hout)
    split
    case h_1 iv hsome =>
      obtain ⟨hgen, h8, hm8⟩ := hiv iv hsome
      have hm : offset s .m + length s .m ≤ s.cfg.dmemBytes := hranged .m (m_mem_usedPairs hgen)
      exact write_inside hs (show offset s .m + iv.length ≤ _ by omega)
    case h_2 => exact hs

/-- The command in progress is a legal one with its own outcome, or an illegal word, which ends with an error (R128). -/
theorem latchedOutcome_cases (s : State) :
    (∃ i, decode s.lcmd = .ok i ∧ latchedOutcome s = outcome i s) ∨ latchedOutcome s = .error .illegalCommand := by
  unfold latchedOutcome
  cases decode s.lcmd with
  | ok i => exact .inl ⟨i, rfl, rfl⟩
  | error e => exact .inr rfl

theorem latchedOutcome_error_legal {s : State} {e : ErrCode} (h : latchedOutcome s = .error e) :
    e.code ∈ legalErrcodes := by
  obtain ⟨i, -, hi⟩ | hill := latchedOutcome_cases s
  · obtain ⟨hkey, henc, hio, -⟩ := outcome_error (hi ▸ h)
    exact code_legal hkey henc hio
  · cases hill.symm.trans h
    decide

theorem latchedOutcome_ok_inside {s : State} {r : Success} (h : latchedOutcome s = .ok r)
    (hs : s.dmem.inside s.cfg.dmemBytes) : (commitMemory r s).inside s.cfg.dmemBytes := by
  obtain ⟨i, -, hi⟩ | hill := latchedOutcome_cases s
  · exact commitMemory_inside (hi ▸ h) hs
  · cases hill.symm.trans h

theorem complete_latchedOutcome_inv {s : State} (hs : s.Inv) : (complete (latchedOutcome s) s).Inv := by
  cases h : latchedOutcome s with
  | ok r => exact inv_of_idle rfl zero_mem_legalErrcodes (latchedOutcome_ok_inside h hs.dmem_inside) hs.lmem_inside
  | error e => exact inv_of_idle rfl (latchedOutcome_error_legal h) hs.dmem_inside hs.lmem_inside

/-! ### Host inputs -/

theorem memory_nil_inside (n : Nat) : Memory.inside [] n := ⟨.nil, nofun⟩

theorem abandonedMemory_inside {s : State} {n : Nat} (h : s.dmem.inside n) : (abandonedMemory s).inside n := by
  unfold abandonedMemory
  split
  · exact forget_inside (forget_inside h _ _) _ _
  · exact forget_inside h _ _

theorem reset_inv : State.reset.Inv :=
  inv_of_idle rfl zero_mem_legalErrcodes (memory_nil_inside _) (memory_nil_inside _)

theorem hardReset_inv (s : State) : (hardReset s).Inv :=
  inv_of_idle rfl zero_mem_legalErrcodes (memory_nil_inside _) (memory_nil_inside _)

theorem softReset_inv {s : State} (hs : s.Inv) : (softReset s).Inv := by
  refine inv_of_idle rfl zero_mem_legalErrcodes ?_ (memory_nil_inside _)
  rw [softReset_dmem]
  split
  · exact abandonedMemory_inside hs.dmem_inside
  · exact hs.dmem_inside

/-- START sets up the BUSY clauses: it clears the flags and latches CMD, ARG and DMEM (R37, R51). -/
theorem startCommand_inv {s : State} (hs : s.dmem.inside s.cfg.dmemBytes) : (startCommand s).Inv where
  dmem_inside := hs
  lmem_inside := hs
  done_idle := nofun
  errcode_legal := zero_mem_legalErrcodes
  busy_clear := fun _ => ⟨rfl, rfl, rfl, rfl⟩
  busy_latched := fun _ => ⟨rfl, rfl, rfl⟩

/-- A STATUS write only clears flags (R40 to R43). -/
theorem clearStatus_inv {s : State} (hs : s.Inv) (v : Word) : (clearStatus v s).Inv where
  dmem_inside := hs.dmem_inside
  lmem_inside := hs.lmem_inside
  done_idle := fun hdone => hs.done_idle (Bool.and_eq_true_iff.1 hdone).1
  errcode_legal := hs.errcode_legal
  busy_clear := fun hbusy => by
    obtain ⟨hdone, herr, hcode, hlen⟩ := hs.busy_clear hbusy
    simp [hdone, herr, hcode, hlen]
  busy_latched := hs.busy_latched

/-- The invariant does not speak of IRQEN, WERR, `wait`, `event`, `inputs` and `responses`. -/
theorem State.Inv.of_unspoken {s : State} (hs : s.Inv) (irqen werr : Bool) (wait event : Nat) (inputs : List Input)
    (responses : List Response) :
    ({ s with irqen, werr, wait, event, inputs, responses } : State).Inv := by
  obtain ⟨hd, hl, hdone, herr, hclear, hlatch⟩ := hs
  exact ⟨hd, hl, hdone, herr, hclear, hlatch⟩

theorem respond_inv {s : State} (hs : s.Inv) (r : Response) : (respond r s).Inv := hs.of_unspoken _ _ _ _ _ _

theorem dropWrite_inv {s : State} (hs : s.Inv) : (dropWrite s).Inv := hs.of_unspoken _ _ _ _ _ _

theorem takeInput_inv {s : State} (hs : s.Inv) (rest : List Input) : (takeInput rest s).Inv :=
  hs.of_unspoken _ _ _ _ _ _

theorem irqen_inv {s : State} (hs : s.Inv) (b : Bool) : ({ s with irqen := b } : State).Inv :=
  hs.of_unspoken _ _ _ _ _ _

theorem HostEffect.inv {s t : State} {x : Input} (h : HostEffect s x t) (hs : s.Inv) : t.Inv := by
  cases h with
  | hardReset => exact hardReset_inv s
  | softReset v hv => exact respond_inv (softReset_inv hs) _
  | start v hsrst hstart hidle =>
    refine respond_inv ?_ _
    exact startCommand_inv hs.dmem_inside
  | startDropped v hsrst hstart hbusy => exact respond_inv (dropWrite_inv (irqen_inv hs _)) _
  | irqen v hsrst hstart => exact respond_inv (irqen_inv hs _) _
  | status v => exact respond_inv (clearStatus_inv hs v) _
  | cmd v hidle | arg k v hidle =>
    refine respond_inv ?_ _
    exact inv_of_idle hidle hs.errcode_legal hs.dmem_inside hs.lmem_inside
  | dmem a w v hidle ha hin =>
    refine respond_inv ?_ _
    exact inv_of_idle hidle hs.errcode_legal (write_inside hs.dmem_inside (by simpa [toLE] using hin)) hs.lmem_inside
  | dropped a w v hbusy ha => exact respond_inv (dropWrite_inv hs) _
  | draw t r => exact respond_inv (hs.of_unspoken _ _ _ _ _ _) r
  | responseOnly t r => exact respond_inv hs r

end Sys2Proof.Machine

open Sys2Proof.Machine

/-- Settles O52: a step completes the command in progress or has the effect of a host input, and each keeps the
invariant. -/
theorem stepKeepsTheInvariant : Obligations.StepKeepsTheInvariant := by
  intro s t hs hstep
  obtain ⟨-, rfl⟩ | rfl | ⟨-, x, rest, -, heffect⟩ := step_effect hstep
  · exact complete_latchedOutcome_inv hs
  · exact hs
  · exact heffect.inv (takeInput_inv hs rest)

/-- Settles O51: the reset state is idle with ERRCODE 0, nothing is listed in DMEM, and the latch is empty (log
entry 7). -/
theorem resetMeetsTheInvariant : Obligations.ResetMeetsTheInvariant := reset_inv
end

section
/-! What a command's outcome depends on (R11, R55). -/

namespace Sys2Proof.Machine

/-- The part of the state that a command reads: the latched operands and memory, the parameters and the draw counter;
the rest is as at reset. -/
def latchedView (s : State) : State :=
  { State.reset with cfg := s.cfg, larg := s.larg, lmem := s.lmem, event := s.event }

/-- No command reads anything outside its latched view (R55). -/
theorem outcome_latchedView (i : Instr) (s : State) : outcome i (latchedView s) = outcome i s := by
  cases i <;> rfl

theorem outcome_congr {s s' : State} (hlarg : s.larg = s'.larg) (hlmem : s.lmem = s'.lmem) (hcfg : s.cfg = s'.cfg)
    (hevent : s.event = s'.event) (i : Instr) : outcome i s = outcome i s' := by
  rw [← outcome_latchedView i s, ← outcome_latchedView i s', latchedView, latchedView, hlarg, hlmem, hcfg, hevent]

/-- A commit of one result at the same offsets keeps two memories equal wherever they were equal (R95). -/
theorem commitMemory_get?_congr {s s' : State} {a : Nat} (r : Success) (hlarg : s.larg = s'.larg)
    (ha : s.dmem.get? a = s'.dmem.get? a) : (commitMemory r s).get? a = (commitMemory r s').get? a := by
  obtain ⟨out, iv⟩ := r
  cases iv <;> simp only [commitMemory, get?_write, hlarg, ha]

end Sys2Proof.Machine

open Sys2Proof.Machine

/-- Settles O11: both states compute one outcome (`outcome_congr`), and both completions then do the same (R408). -/
theorem outcomeDependsOnLatchAndDrawsOnly : Obligations.OutcomeDependsOnLatchAndDrawsOnly := by
  intro i s s' t t' hlarg hlmem hcfg hevent ht ht'
  have hout : outcome i s = outcome i s' := outcome_congr hlarg hlmem hcfg hevent i
  rw [exec_eq] at ht ht'
  cases ht
  cases ht'
  rw [hout]
  cases outcome i s' with
  | ok r => exact ⟨rfl, rfl, rfl, fun a ha => commitMemory_get?_congr r hlarg ha⟩
  | error e => exact ⟨rfl, rfl, rfl, fun a ha => ha⟩
end

section
/-! The soft reset (R38, R500, R502): which command words write back a generated IV, and what an abandoned command leaves
of DMEM. -/

namespace Sys2Proof.Machine

/-- A decoded word is hit by the row of the opcode map that builds its command (R126, R127). -/
theorem exists_row_of_decode {w : Word} {i : Instr} (h : decode w = .ok i) :
    ∃ r ∈ opcodeTable, r.hits w = true ∧ r.build (w.getLsbD 8) (w.getLsbD 9) = i := by
  unfold decode at h
  split at h
  · rename_i r hr
    have hhit := List.find?_some hr
    exact ⟨r, List.mem_of_find?_eq_some hr, hhit, Except.ok.inj h⟩
  · cases h

theorem and_flag (w : Word) (i : Nat) : w &&& BitVec.twoPow 32 i = flagAt i (w.getLsbD i) := BitVec.and_twoPow w i

/-- A word of a row that leaves both flags free is its opcode with its two flags (R120, R127). -/
theorem eq_opcode_or_flags {w c : Word} (h : w &&& 0xFFFFFCFF = c) :
    w = c ||| flagAt 8 (w.getLsbD 8) ||| flagAt 9 (w.getLsbD 9) := by
  calc w = w &&& (0xFFFFFCFF ||| BitVec.twoPow 32 8 ||| BitVec.twoPow 32 9) := by
        rw [show (0xFFFFFCFF ||| BitVec.twoPow 32 8 ||| BitVec.twoPow 32 9 : Word) = BitVec.allOnes 32 by decide,
          BitVec.and_allOnes]
    _ = _ := by rw [BitVec.and_or_distrib_left, BitVec.and_or_distrib_left, and_flag, and_flag, h]

/-- The four command words with IVGEN = 1 that R127 allows, ENV free. -/
abbrev ivgenWords : List Word := [0x00000212, 0x00000312, 0x00000214, 0x00000314]

/-- Only the rows of GOST_CFB_ENC and GOST_OFB_ENC build a command that generates its IV, from IVGEN = 1 (R126,
R127). -/
theorem row_of_generatesIv : ∀ r ∈ opcodeTable, ∀ env ivgen : Bool, generatesIv (r.build env ivgen) = true →
    ivgen = true ∧ r.mask = 0xFFFFFCFF ∧ (r.opcode = 0x12 ∨ r.opcode = 0x14) := by
  decide

theorem mem_ivgenWords_of_decode {w : Word} {i : Instr} (h : decode w = .ok i) (hgen : generatesIv i = true) :
    w ∈ ivgenWords := by
  obtain ⟨r, hr, hhit, rfl⟩ := exists_row_of_decode h
  obtain ⟨hivgen, hmask, hopcode⟩ := row_of_generatesIv r hr _ _ hgen
  have hw : w &&& 0xFFFFFCFF = r.opcode := by simpa [OpcodeRow.hits, hmask] using hhit
  rw [eq_opcode_or_flags hw, hivgen]
  rcases hopcode with hc | hc <;> rw [hc] <;> cases w.getLsbD 8 <;> decide

/-- Exactly these four words have an IV to write back (R261, R502). -/
theorem writesBackIv_iff (w : Word) : writesBackIv w = true ↔ w ∈ ivgenWords := by
  constructor
  · intro h
    unfold writesBackIv at h
    split at h
    case h_1 hdec => exact mem_ivgenWords_of_decode hdec h
    case h_2 hdec => exact mem_ivgenWords_of_decode hdec h
    case h_3 => cases h
  · simp only [ivgenWords, List.mem_cons, List.not_mem_nil, or_false]
    rintro (rfl | rfl | rfl | rfl) <;> rfl

theorem abandonedMemory_eq (s : State) :
    abandonedMemory s =
      if writesBackIv s.lcmd then (s.dmem.forget (offset s .out) (length s .out)).forget (offset s .m) 8
      else s.dmem.forget (offset s .out) (length s .out) := rfl

/-- What an abandoned command leaves of DMEM (R502). -/
theorem get?_abandonedMemory (s : State) (a : Nat) :
    (abandonedMemory s).get? a =
      if (offset s .out ≤ a ∧ a < offset s .out + length s .out) ∨
         (s.lcmd ∈ ivgenWords ∧ offset s .m ≤ a ∧ a < offset s .m + 8)
      then none else s.dmem.get? a := by
  rw [abandonedMemory_eq]
  by_cases hiv : s.lcmd ∈ ivgenWords
  · rw [if_pos ((writesBackIv_iff _).2 hiv), get?_forget, get?_forget]
    by_cases hm : offset s .m ≤ a ∧ a < offset s .m + 8
    · rw [if_pos hm, if_pos (.inr ⟨hiv, hm⟩)]
    · simp only [hm, and_false, or_false, if_false]
  · rw [if_neg (mt (writesBackIv_iff _).1 hiv), get?_forget]
    simp only [hiv, false_and, or_false]

/-- A CTRL write with SRST = 1 is a soft reset whatever its other bits (R38). -/
theorem hostInput_softReset {v : Word} (hv : v.getLsbD 1 = true) (s : State) :
    hostInput (w32 0x0C v) s = respond .okayWrite (softReset s) := by
  rw [hostInput_writeCtrl, if_pos hv]

end Sys2Proof.Machine

open Sys2Proof.Machine

/-- Settles O37: the registers are those of the reset state, and an abandoned command's regions are
`get?_abandonedMemory`. -/
theorem softResetFollowsItsRule : Obligations.SoftResetFollowsItsRule := by
  intro s t v hv ht
  rw [hostInput_softReset hv] at ht
  subst ht
  refine ⟨rfl, rfl, rfl, rfl, rfl, rfl, rfl, rfl, fun k => by simp, rfl, rfl, fun hidle => ?_, fun hbusy a => ?_⟩
  · simp [hidle]
  · rw [respond_dmem, softReset_dmem, if_pos hbusy]
    exact get?_abandonedMemory s a
end

section
/-! The host's register writes and reads, one by one (R33 to R49), and the interrupt level (R412). -/

namespace Sys2Proof.Machine

/-! ### What a register read returns -/

theorem ctrlWord_start (s : State) : (ctrlWord s).getLsbD 0 = false := by
  unfold ctrlWord; cases s.irqen <;> rfl

theorem statusWord_toNat (s : State) :
    (statusWord s).toNat = 8 * s.werr.toNat + 4 * s.err.toNat + 2 * s.done.toNat + s.busy.toNat := by
  unfold statusWord
  generalize s.werr = w, s.err = e, s.done = d, s.busy = b
  revert w e d b
  decide

/-- CFG1 reads the whole of a legal MAXBYTES, which fits 16 bits (R6, R36). -/
theorem regRead_cfg1 {s : State} (h : s.cfg.wf = true) : regRead s .cfg1 = BitVec.ofNat 32 s.cfg.maxBytes := by
  have hmax : s.cfg.maxBytes ≤ 4096 := by
    simp only [Config.wf, Config.maxInRange, Bool.and_eq_true, decide_eq_true_eq] at h
    omega
  apply BitVec.eq_of_toNat_eq
  simp only [regRead, BitVec.toNat_setWidth, BitVec.toNat_ofNat]
  omega

theorem regRead_errcode (s : State) : regRead s .errcode = BitVec.ofNat 32 s.errcode.toNat := by
  apply BitVec.eq_of_toNat_eq
  simp [regRead]

/-! ### What a CTRL write does -/

/-- START while idle (R37). -/
theorem writeCtrl_idle {s : State} {v : Word} (hstart : v.getLsbD 0 = true) (hidle : s.busy = false) :
    writeCtrl v s = startCommand { s with irqen := v.getLsbD 2 } := by
  simp [writeCtrl, hstart, hidle]

/-- START while BUSY (R37, R43). -/
theorem writeCtrl_busy {s : State} {v : Word} (hstart : v.getLsbD 0 = true) (hbusy : s.busy = true) :
    writeCtrl v s = dropWrite { s with irqen := v.getLsbD 2 } := by
  simp [writeCtrl, hstart, hbusy]

/-- No START: IRQEN alone (R39). -/
theorem writeCtrl_noStart {s : State} {v : Word} (hstart : v.getLsbD 0 = false) :
    writeCtrl v s = { s with irqen := v.getLsbD 2 } := by
  rw [writeCtrl, hstart]
  rfl

/-- IRQEN takes bit 2 in every case (R39). -/
@[simp] theorem writeCtrl_irqen (v : Word) (s : State) : (writeCtrl v s).irqen = v.getLsbD 2 := by
  unfold writeCtrl; split_ifs <;> rfl

@[simp] theorem writeCtrl_dmem (v : Word) (s : State) : (writeCtrl v s).dmem = s.dmem := by
  unfold writeCtrl; split_ifs <;> rfl

@[simp] theorem writeCtrl_cmd (v : Word) (s : State) : (writeCtrl v s).cmd = s.cmd := by
  unfold writeCtrl; split_ifs <;> rfl

@[simp] theorem writeCtrl_arg (v : Word) (s : State) : (writeCtrl v s).arg = s.arg := by
  unfold writeCtrl; split_ifs <;> rfl

@[simp] theorem writeCtrl_responses (v : Word) (s : State) : (writeCtrl v s).responses = s.responses := by
  unfold writeCtrl; split_ifs <;> rfl

/-- A CTRL write with SRST = 0 (R37, R39). -/
theorem hostInput_noReset {v : Word} (hv : v.getLsbD 1 = false) (s : State) :
    hostInput (w32 0x0C v) s = respond .okayWrite (writeCtrl v s) := by
  rw [hostInput_writeCtrl, hv]
  rfl

/-! ### Writes that are ignored -/

/-- The read-only registers and the reserved offsets (R34 to R36, R45, R46, R49). -/
theorem regWrite_readOnly {o : Nat} (h : o ∈ [0x00, 0x04, 0x08, 0x14, 0x18] ∨ 0x40 ≤ o) (v : Word) (s : State) :
    regWrite v s (Reg.ofOffset o) = s := by
  obtain h | h := h
  · simp only [List.mem_cons, List.not_mem_nil, or_false] at h
    rcases h with rfl | rfl | rfl | rfl | rfl <;> rfl
  · rw [ofOffset_reserved h, regWrite]

/-! ### The interrupt level -/

theorem irq_complete (o : CommandOutcome) (s : State) : irq (complete o s) = s.irqen := by
  cases o <;> simp [irq]

theorem irq_eq_false_of_irqen {s : State} (h : s.irqen = false) : irq s = false := by simp [irq, h]

theorem irq_eq_false_of_done {s : State} (h : s.done = false) : irq s = false := by simp [irq, h]

/-- START while idle, with or without SRST, clears DONE (R37, R38, R412). -/
theorem hostInput_start_done {s : State} {v : Word} (hidle : s.busy = false) (hstart : v.getLsbD 0 = true) :
    (hostInput (w32 0x0C v) s).done = false := by
  rw [hostInput_writeCtrl, writeCtrl_idle hstart hidle]
  split <;> rfl

/-- IRQEN after a CTRL write: bit 2 of the value, or 0 after a soft reset (R38, R39). -/
theorem hostInput_writeCtrl_irqen {s : State} {v : Word} (hv : v.getLsbD 2 = false) :
    (hostInput (w32 0x0C v) s).irqen = false := by
  rw [hostInput_writeCtrl]
  split
  · rfl
  · exact (writeCtrl_irqen v s).trans hv

end Sys2Proof.Machine

open Sys2Proof.Machine

/-- Settles O42: such an offset names a register whose write changes nothing, and a reserved one reads 0. -/
theorem readOnlyRegistersIgnoreWrites : Obligations.ReadOnlyRegistersIgnoreWrites := by
  intro s v a h4 ha
  have hwin : a.toNat < 0x100 := by
    simp only [List.mem_cons, List.not_mem_nil, or_false] at ha
    omega
  constructor
  · rw [hostInput_w32 hwin h4, regWrite_readOnly (ha.imp_right And.left)]
    rfl
  · intro hres
    rw [hostInput_r32 hwin h4, ofOffset_reserved hres]
    rfl

/-- Settles O50: a completion sets DONE and keeps IRQEN; every other event clears DONE or IRQEN. -/
theorem interruptLevel : Obligations.InterruptLevel := by
  refine ⟨fun s => rfl, fun i s t ht => ?_, fun s v hv => ?_, fun s v hidle hstart => ?_, fun s v hv => ?_,
    fun s v hv => ?_, fun s => rfl⟩
  · rw [exec_eq] at ht
    cases ht
    exact irq_complete _ s
  · rw [hostInput_writeStatus]
    exact irq_eq_false_of_done (by simp [hv])
  · exact irq_eq_false_of_done (hostInput_start_done hidle hstart)
  · rw [hostInput_softReset hv]
    rfl
  · exact irq_eq_false_of_irqen (hostInput_writeCtrl_irqen hv)

/-- Settles O5: BUSY with no input still to wait for is the engine's turn (R30, R520). -/
theorem stepRunsTheDecodedCommand : Obligations.StepRunsTheDecodedCommand := by
  intro s i hbusy hturn hdec
  rw [step, if_pos ((engineTurn_iff s).2 ⟨hbusy, hturn⟩), engineStep, fetchWord, hdec]

/-- Settles O36, by the three cases of a CTRL write (R37, R39). -/
theorem startWriteFollowsItsRule : Obligations.StartWriteFollowsItsRule := by
  intro s t v hv ht
  rw [hostInput_noReset hv] at ht
  subst ht
  refine ⟨by simp, by simp, by simp, by simp, by simp, by simp, ctrlWord_start _, fun hstart hidle => ?_,
    fun hstart hbusy => ?_, fun hstart => ?_⟩
  · rw [writeCtrl_idle hstart hidle]
    exact ⟨rfl, rfl, rfl, rfl, rfl, rfl, rfl, rfl, rfl⟩
  · rw [writeCtrl_busy hstart hbusy]
    exact ⟨rfl, hbusy, rfl, rfl, rfl, rfl, rfl, rfl, rfl, rfl⟩
  · rw [writeCtrl_noStart hstart]
    exact ⟨rfl, rfl, rfl, rfl, rfl, rfl, rfl, rfl, rfl, rfl⟩

/-- Settles O39: the reset values of R33's table, read one by one. -/
theorem resetStateReadsAsTheTable : Obligations.ResetStateReadsAsTheTable := by
  refine ⟨rfl, rfl, rfl, rfl, rfl, rfl, rfl, rfl, fun k => ?_, rfl, rfl, get?_nil⟩
  simp [regRead]

/-- Settles O40: the write is `clearStatus`, the read `statusWord` (R44). -/
theorem statusWriteClearsItsBits : Obligations.StatusWriteClearsItsBits :=
  fun s v => ⟨hostInput_writeStatus v s, statusWord_toNat s⟩

/-- Settles O41: one rule for CMD and for ARGk, idle or BUSY (R47, R48). -/
theorem commandRegisterWrites : Obligations.CommandRegisterWrites := by
  intro s v k
  rw [hostInput_writeCmd, hostInput_writeArg]
  constructor <;> split <;> rfl

/-- Settles O49: each offset of R33's table names its register, and every register reads as itself. -/
theorem registerReadsReturnTheRegister : Obligations.RegisterReadsReturnTheRegister := by
  intro s hwf a v hav
  rw [← regRead_cfg1 hwf, ← regRead_errcode s] at hav
  have hread : a.toNat < 0x100 ∧ a.toNat % 4 = 0 ∧ regRead s (Reg.ofOffset a.toNat) = v := by
    simp only [List.mem_cons, List.not_mem_nil, or_false, Prod.mk.injEq] at hav
    rcases hav with ⟨rfl, rfl⟩ | ⟨rfl, rfl⟩ | ⟨rfl, rfl⟩ | ⟨rfl, rfl⟩ | ⟨rfl, rfl⟩ | ⟨rfl, rfl⟩ | ⟨rfl, rfl⟩ |
      ⟨rfl, rfl⟩ | ⟨rfl, rfl⟩ | ⟨rfl, rfl⟩ | ⟨rfl, rfl⟩ | ⟨rfl, rfl⟩ | ⟨rfl, rfl⟩ | ⟨rfl, rfl⟩ | ⟨rfl, rfl⟩ | ⟨rfl, rfl⟩ <;>
      exact ⟨by decide, by decide, rfl⟩
  obtain ⟨hwin, h4, hv⟩ := hread
  rw [hostInput_r32 hwin h4, hv]
  rfl
end

section
/-! What a step may do to WERR, CMD and ARG (R31, R43, R47, R48). -/

namespace Sys2Proof.Machine

/-- An input that resets the block: the reset input, or a CTRL write with SRST = 1 (R500). -/
def Input.Resets (x : Input) : Prop := x = .hardReset ∨ ∃ v : Word, x = w32 0x0C v ∧ v.getLsbD 1 = true

theorem Input.Resets.resetNext {s : State} {x : Input} {rest : List Input} (h : x.Resets) (hs : s.inputs = x :: rest) :
    resetNext s := by
  have hhead : s.inputs.head? = some x := by rw [hs]; rfl
  obtain rfl | ⟨v, rfl, hv⟩ := h
  · exact .inl hhead
  · exact .inr ⟨v, hhead, hv⟩

/-- One host input clears WERR only by a reset or a STATUS write with bit 3 (R43). -/
theorem HostEffect.werr_cleared {s t : State} {x : Input} (h : HostEffect s x t) (hs : s.werr = true)
    (ht : t.werr = false) :
    x.Resets ∨
      ∃ v : Word, x = w32 0x10 v ∧ v.getLsbD 3 = true := by
  cases h with
  | hardReset => exact .inl (.inl rfl)
  | softReset v hv => exact .inl (.inr ⟨v, rfl, hv⟩)
  | status v =>
    rw [respond_werr, clearStatus_werr, hs, Bool.true_and, Bool.not_eq_false'] at ht
    exact .inr ⟨v, rfl, ht⟩
  | startDropped | dropped => cases ht
  | start | irqen | cmd | arg | dmem | draw | responseOnly => cases hs.symm.trans ht

/-- One host input sets WERR only while BUSY, by a write of START, CMD, ARG or DMEM (R43). -/
theorem HostEffect.werr_set {s t : State} {x : Input} (h : HostEffect s x t) (hs : s.werr = false)
    (ht : t.werr = true) :
    s.busy = true ∧ ∃ (a : WindowOffset) (w : Width) (v : Word), x = .bus ⟨a, w, .write v⟩ ∧
      ((a.toNat = 0x0C ∧ v.getLsbD 0 = true ∧ v.getLsbD 1 = false) ∨ (0x1C ≤ a.toNat ∧ a.toNat ≤ 0x3C) ∨
        0x10000 ≤ a.toNat) := by
  cases h with
  | startDropped v hsrst hstart hbusy => exact ⟨hbusy, 0x0C, .word, v, rfl, .inl ⟨rfl, hstart, hsrst⟩⟩
  | dropped a w v hbusy ha => exact ⟨hbusy, a, w, v, rfl, .inr ha⟩
  | status v =>
    rw [respond_werr, clearStatus_werr, hs, Bool.false_and] at ht
    cases ht
  | hardReset | softReset => cases ht
  | start | irqen | cmd | arg | dmem | draw | responseOnly => cases hs.symm.trans ht

/-- One host input changes CMD only by a reset or a write of it while idle (R47). -/
theorem HostEffect.cmd_changed {s t : State} {x : Input} (h : HostEffect s x t) (ht : t.cmd ≠ s.cmd) :
    x.Resets ∨ (s.busy = false ∧ x = w32 0x1C t.cmd) := by
  cases h with
  | hardReset => exact .inl (.inl rfl)
  | softReset v hv => exact .inl (.inr ⟨v, rfl, hv⟩)
  | cmd v hidle => exact .inr ⟨hidle, rfl⟩
  | start | startDropped | irqen | status | arg | dmem | dropped | draw | responseOnly => exact absurd rfl ht

/-- One host input changes ARGk only by a reset or a write of it while idle (R48). -/
theorem HostEffect.arg_changed {s t : State} {x : Input} (h : HostEffect s x t) (k : Fin 8)
    (ht : t.arg[k] ≠ s.arg[k]) :
    x.Resets ∨
      (s.busy = false ∧ x = w32 (BitVec.ofNat 17 (0x20 + 4 * k.val)) t.arg[k]) := by
  cases h with
  | hardReset => exact .inl (.inl rfl)
  | softReset v hv => exact .inl (.inr ⟨v, rfl, hv⟩)
  | arg j v hidle =>
    by_cases hjk : j = k
    · subst hjk
      exact .inr ⟨hidle, by simp⟩
    · exact absurd (by simp [Fin.val_ne_of_ne hjk]) ht
  | start | startDropped | irqen | status | cmd | dmem | dropped | draw | responseOnly => exact absurd rfl ht

end Sys2Proof.Machine

open Sys2Proof.Machine

/-- Settles O56: a completion keeps WERR, and a host input changes it only as `HostEffect.werr_cleared` and
`HostEffect.werr_set` say. -/
theorem werrChangesOnlyAsItsRuleSays : Obligations.WerrChangesOnlyAsItsRuleSays := by
  intro s t hstep
  obtain ⟨-, rfl⟩ | rfl | ⟨hturn, x, rest, hx, heffect⟩ := step_effect hstep
  · have hkept := (complete_kept (latchedOutcome s) s).werr
    constructor <;> intro hs ht <;> cases ht.symm.trans (hkept.trans hs)
  · constructor <;> intro hs ht <;> cases ht.symm.trans hs
  · have hhead : s.inputs.head? = some x := by rw [hx]; rfl
    constructor
    · intro hs ht
      obtain hreset | ⟨v, rfl, hv⟩ := heffect.werr_cleared hs ht
      · exact .inl (hreset.resetNext hx)
      · exact .inr ⟨v, hhead, hv⟩
    · intro hs ht
      obtain ⟨hbusy, a, w, v, rfl, ha⟩ := heffect.werr_set hs ht
      exact ⟨hbusy, hturn, a, w, v, hhead, ha⟩

/-- Settles O57: a completion keeps CMD and ARG, and a host input changes them only as `HostEffect.cmd_changed` and
`HostEffect.arg_changed` say. -/
theorem onlyTheHostWritesCmdAndArg : Obligations.OnlyTheHostWritesCmdAndArg := by
  intro s t hstep
  obtain ⟨-, rfl⟩ | rfl | ⟨-, x, rest, hx, heffect⟩ := step_effect hstep
  · have hkept := complete_kept (latchedOutcome s) s
    exact ⟨fun ht => absurd hkept.cmd ht, fun k ht => absurd (by rw [hkept.arg]) ht⟩
  · exact ⟨fun ht => absurd rfl ht, fun k ht => absurd rfl ht⟩
  · have hhead : s.inputs.head? = some x := by rw [hx]; rfl
    constructor
    · intro ht
      obtain hreset | ⟨hidle, rfl⟩ := heffect.cmd_changed ht
      · exact .inl (hreset.resetNext hx)
      · exact .inr ⟨hidle, hhead⟩
    · intro k ht
      obtain hreset | ⟨hidle, harg⟩ := heffect.arg_changed k ht
      · exact .inl (hreset.resetNext hx)
      · exact .inr ⟨hidle, hhead.trans (congrArg some harg)⟩
end

section
/-! What a command writes and when it ends with RANGE_ERROR (R93, R95, R96, R404). -/

namespace Sys2Proof.Machine

/-- Exec answers in one of two ways: the command commits its result, or it is rejected with its error (R400). -/
theorem exec_cases {i : Instr} {s t : State} (h : exec i s = .next t) :
    (∃ r, outcome i s = .ok r ∧ t = completeOk r s) ∨ (∃ e, outcome i s = .error e ∧ t = completeErr e s) := by
  rw [exec_eq] at h
  cases ho : outcome i s with
  | ok r => exact .inl ⟨r, rfl, by simpa [ho] using h.symm⟩
  | error e => exact .inr ⟨e, rfl, by simpa [ho] using h.symm⟩

/-- RESLEN holds the length of a result that fits its capacity: it never wraps (R46, R95). -/
theorem completeOk_reslen_toNat {r : Success} {s : State} (h : r.out.length ≤ length s .out) :
    (completeOk r s).reslen.toNat = r.out.length := by
  have hcap : length s .out < 2 ^ 32 := (s.larg[7]).isLt
  rw [completeOk_reslen, BitVec.toNat_ofNat, Nat.mod_eq_of_lt (by omega)]

/-- A commit writes only the result's bytes and the bytes of a generated IV (R95). -/
theorem get?_commitMemory_outside {r : Success} {s : State} {a : Nat}
    (hout : ¬(offset s .out ≤ a ∧ a < offset s .out + r.out.length))
    (hiv : ∀ v, r.iv = some v → ¬(offset s .m ≤ a ∧ a < offset s .m + v.length)) :
    (commitMemory r s).get? a = s.dmem.get? a := by
  obtain ⟨out, iv⟩ := r
  cases iv with
  | none => rw [← completeOk_dmem, completeOk_dmem_none, get?_write, if_neg hout]
  | some v => rw [← completeOk_dmem, completeOk_dmem_some, get?_write, if_neg hout, get?_write, if_neg (hiv v rfl)]

/-! ### RANGE_ERROR -/

theorem code_eq_rangeError_iff (e : ErrCode) : e.code = 0x02 ↔ e = .rangeError := by
  cases e <;> decide

theorem streamEnc_rangeError_iff (mode : List Byte → List Byte → List Byte → List Byte) (env ivgen : Bool) (s : State) :
    streamEncOutcome mode env ivgen s = .error .rangeError ↔
      ¬(inRange s .a ∧ inRange s .b ∧ inRange s .m ∧ inRange s .out) := by
  simp only [streamEncOutcome, chk_eq, keyCheck_eq, ivCheck_eq, fit_eq, require_bind, check_eq_error, pure_eq_ok,
    reduceCtorEq]
  tauto

theorem streamDec_rangeError_iff (mode : List Byte → List Byte → List Byte → List Byte) (env : Bool) (s : State) :
    streamDecOutcome mode env s = .error .rangeError ↔
      ¬(inRange s .a ∧ inRange s .b ∧ (env = true ∨ inRange s .m) ∧ inRange s .out) := by
  simp only [streamDecOutcome, chk_eq, keyCheck_eq, ivCheck_eq, result_eq, require_bind, check_eq_error]
  cases env with
  | false =>
    simp only [Bool.false_eq_true, if_false, check_eq_error, reduceCtorEq]
    tauto
  | true =>
    simp only [if_true, check_eq_error, reduceCtorEq]
    tauto

/-- The range checks of the used descriptors come first, and no other check raises RANGE_ERROR (R93, R404). -/
theorem outcome_rangeError_iff (i : Instr) (s : State) : outcome i s = .error .rangeError ↔ ¬Ranged i s := by
  cases i with
  | nop => simp [outcome, nopOutcome, Ranged, usedPairs]
  | gostCfbEnc env ivgen | gostOfbEnc env ivgen =>
    simp only [outcome, streamEnc_rangeError_iff]
    simp [Ranged, usedPairs]
  | gostCfbDec env | gostOfbDec env =>
    simp only [outcome, streamDec_rangeError_iff]
    cases env <;> simp [Ranged, usedPairs]
  | _ =>
    simp only [outcome, rngFillOutcome, mulOutcome, modOutcome, mulmodOutcome, modpowOutcome, rsaOutcome,
      threeOperandChecks, ecbOutcome, permEncOutcome, permDecOutcome, keyCheck_eq, chk_eq, sizeLimit_eq, result_eq,
      require_bind, ite_error_bind, check_eq_error, pure_eq_ok, reduceCtorEq, Ranged, usedPairs, List.mem_cons,
      List.not_mem_nil, or_false, forall_eq_or_imp, forall_eq]
    tauto

end Sys2Proof.Machine

open Sys2Proof.Machine

/-- Settles O8: a failing command completes by `completeErr`, with an error a legal command can raise. -/
theorem failedCommandWritesNoMemory : Obligations.FailedCommandWritesNoMemory := by
  intro i s t ht herr
  obtain ⟨r, -, rfl⟩ | ⟨e, he, rfl⟩ := exec_cases ht
  · cases herr
  · obtain ⟨hkey, henc, hio, -⟩ := outcome_error he
    exact ⟨fun _ => rfl, rfl, code_ne_zero e, code_legal hkey henc hio⟩

/-- Settles O9: only a success writes, and it writes its result and, for IVGEN, an IV of 8 bytes (`outcome_ok`). -/
theorem commandsWriteOnlyTheirOutput : Obligations.CommandsWriteOnlyTheirOutput := by
  intro i s t ht a hout hiv
  obtain ⟨r, hr, rfl⟩ | ⟨e, -, rfl⟩ := exec_cases ht
  · obtain ⟨-, hfits, hivs⟩ := outcome_ok hr
    rw [completeOk_reslen_toNat hfits] at hout
    refine get?_commitMemory_outside hout fun v hv hva => ?_
    obtain ⟨hgen, hlen, -⟩ := hivs v hv
    exact hiv ⟨hgen, hlen ▸ hva⟩
  · rfl

/-- Settles O10: the code 0x02 is RANGE_ERROR's alone, and `outcome_rangeError_iff` says when a command raises it. -/
theorem rangeErrorExactlyForUsedDescriptors : Obligations.RangeErrorExactlyForUsedDescriptors := by
  intro i s t ht
  have hrange : (∃ p ∈ usedPairs i, ¬inRange s p) ↔ outcome i s = .error .rangeError := by
    rw [outcome_rangeError_iff]
    simp [Ranged]
  rw [hrange]
  obtain ⟨r, hr, rfl⟩ | ⟨e, he, rfl⟩ := exec_cases ht
  · simp [hr]
  · rw [he, completeErr_errcode, code_eq_rangeError_iff, Except.error.injEq]
end

section
/-! The host's view of data memory: what a DMEM transaction addresses, little-endian byte lanes, and reads after writes
(R80 to R91). -/

namespace Sys2Proof.Machine

/-! ### What a DMEM transaction addresses -/

theorem Width.bytes_le (w : Width) : w.bytes ≤ 4 := by cases w <;> decide

/-- A transaction of the DMEM window addresses the bytes at its offset when it is aligned and ends inside DMEM (R85). -/
theorem target_dmemWindow (n : Nat) {t : Transaction} (ht : 0x10000 ≤ t.addr.toNat) :
    target n t =
      if (t.addr.toNat - 0x10000) % t.width.bytes = 0 ∧ t.addr.toNat - 0x10000 + t.width.bytes ≤ n
      then .dmem (t.addr.toNat - 0x10000) else .error := by
  have hreg : ¬t.addr.toNat < 0x100 := by omega
  rw [target, if_neg hreg]
  exact if_congr (and_iff_right ht) rfl rfl

/-- The accesses of R82, R84 and R85 that address nothing. -/
theorem target_eq_error {n : Nat} {t : Transaction}
    (h : (t.addr.toNat < 0x100 ∧ (t.width.bytes ≠ 4 ∨ t.addr.toNat % 4 ≠ 0)) ∨
      (∃ i < t.width.bytes, 0x100 ≤ t.addr.toNat + i ∧ t.addr.toNat + i < 0x10000) ∨
      (∃ i < t.width.bytes, 0x10000 + n ≤ t.addr.toNat + i) ∨
      (0x10000 ≤ t.addr.toNat ∧ (t.addr.toNat - 0x10000) % t.width.bytes ≠ 0)) : target n t = .error := by
  cases ht : target n t with
  | error => rfl
  | register r =>
    obtain ⟨hwin, hw, h4, -⟩ := target_register ht
    have hbytes : t.width.bytes = 4 := by rw [hw]; rfl
    omega
  | dmem o =>
    obtain ⟨hwin, ho, halign, hend⟩ := target_dmem ht
    rw [ho] at halign hend
    omega

theorem hostInput_of_target_error {t : Transaction} {s : State} (h : target s.cfg.dmemBytes t = .error) :
    hostInput (.bus t) s = respond .error s := by
  simp only [hostInput, busTransaction, h]

section
variable {s : State} {a : WindowOffset} {w : Width}

/-- An aligned write inside DMEM (R85, R90). -/
theorem hostInput_dmemWrite (ha : 0x10000 ≤ a.toNat) (halign : (a.toNat - 0x10000) % w.bytes = 0)
    (hend : a.toNat - 0x10000 + w.bytes ≤ s.cfg.dmemBytes) (v : Word) :
    hostInput (.bus ⟨a, w, .write v⟩) s = respond .okayWrite (dmemWrite v (a.toNat - 0x10000) w.bytes s) := by
  have ht := target_dmemWindow s.cfg.dmemBytes (t := ⟨a, w, .write v⟩) ha
  rw [if_pos ⟨halign, hend⟩] at ht
  simp only [hostInput, busTransaction, ht]

/-- An aligned read inside DMEM (R85, R89). -/
theorem hostInput_dmemRead (ha : 0x10000 ≤ a.toNat) (halign : (a.toNat - 0x10000) % w.bytes = 0)
    (hend : a.toNat - 0x10000 + w.bytes ≤ s.cfg.dmemBytes) :
    hostInput (.bus ⟨a, w, .read⟩) s =
      respond (.okayRead (dmemRead s (a.toNat - 0x10000) w.bytes)) (countDraw s) := by
  have ht := target_dmemWindow s.cfg.dmemBytes (t := ⟨a, w, .read⟩) ha
  rw [if_pos ⟨halign, hend⟩] at ht
  simp only [hostInput, busTransaction, ht]

end

/-- A read responds, and counts a draw when it reaches DMEM; it does nothing else (R91). -/
theorem hostInput_read (s : State) (a : WindowOffset) (w : Width) :
    ∃ (r : Response) (n : Nat),
      hostInput (.bus ⟨a, w, .read⟩) s = { s with responses := r :: s.responses, event := n } ∧ r ≠ .okayWrite := by
  obtain ⟨-, h⟩ | ⟨_, -, -, h⟩ | ⟨_, _, -, hd, -⟩ | ⟨_, -, -, h⟩ | ⟨_, _, -, hd, -⟩ :=
    busTransaction_cases ⟨a, w, .read⟩ s
  · exact ⟨.error, s.event, h, nofun⟩
  · exact ⟨.okayRead _, s.event, h, nofun⟩
  · cases hd
  · exact ⟨.okayRead _, s.event + 1, h, nofun⟩
  · cases hd

theorem hostInput_read_dmem (s : State) (a : WindowOffset) (w : Width) :
    (hostInput (.bus ⟨a, w, .read⟩) s).dmem = s.dmem := by
  obtain ⟨r, n, h, -⟩ := hostInput_read s a w
  rw [h]

/-! ### Idle and BUSY -/

theorem dmemWrite_idle {s : State} (hidle : s.busy = false) (v : Word) (o n : Nat) :
    dmemWrite v o n s = { s with dmem := s.dmem.write o (toLE n v) } := by
  simp [dmemWrite, hidle]

theorem dmemWrite_busy {s : State} (hbusy : s.busy = true) (v : Word) (o n : Nat) :
    dmemWrite v o n s = dropWrite s := by
  simp [dmemWrite, hbusy]

theorem dmemRead_idle {s : State} (hidle : s.busy = false) (o n : Nat) :
    dmemRead s o n = BitVec.ofNat 32 (le (s.dmem.read s.event 0 o n)) := by
  simp [dmemRead, hostView, hidle]

/-- An aligned read inside DMEM while idle responds with the little-endian value of the bytes there (R86). -/
theorem hostInput_dmemRead_idle {s : State} {a : WindowOffset} {w : Width} (hidle : s.busy = false)
    (ha : 0x10000 ≤ a.toNat) (halign : (a.toNat - 0x10000) % w.bytes = 0)
    (hend : a.toNat - 0x10000 + w.bytes ≤ s.cfg.dmemBytes) :
    (hostInput (.bus ⟨a, w, .read⟩) s).responses =
      .okayRead (BitVec.ofNat 32 (le (s.dmem.read s.event 0 (a.toNat - 0x10000) w.bytes))) :: s.responses := by
  rw [hostInput_dmemRead ha halign hend, dmemRead_idle hidle]
  rfl

/-- While BUSY the host sees a memory with no specified byte (R89, R511; log entry 11). -/
theorem dmemRead_busy {s : State} (hbusy : s.busy = true) (o n : Nat) :
    dmemRead s o n = BitVec.ofNat 32 (le (Memory.read [] s.event 0 o n)) := by
  simp [dmemRead, hostView, hbusy]

/-! ### Byte lanes -/

@[simp] theorem toLE_length (n : Nat) (v : Word) : (toLE n v).length = n := by simp [toLE]

/-- A string's little-endian value fits its length (R86). -/
theorem le_lt (bs : List Byte) : le bs < 256 ^ bs.length := by
  induction bs with
  | nil => decide
  | cons b bs ih =>
    have hb : b.toNat < 256 := b.isLt
    rw [le, List.length_cons, Nat.pow_succ]
    omega

/-- One more byte at the end of a string is its most significant lane (R86). -/
theorem le_append_singleton (bs : List Byte) (b : Byte) : le (bs ++ [b]) = le bs + b.toNat * 256 ^ bs.length := by
  induction bs with
  | nil => simp [le]
  | cons c cs ih =>
    rw [List.cons_append, le, le, ih, List.length_cons]
    ring

theorem pow_256_eq_two_pow (n : Nat) : 256 ^ n = 2 ^ (8 * n) := by rw [Nat.pow_mul]

/-- The value of a string given lane by lane (R86). -/
theorem le_map_range (x : Nat → Byte) (n : Nat) :
    le ((List.range n).map x) = ∑ i ∈ Finset.range n, (x i).toNat <<< (8 * i) := by
  induction n with
  | zero => rfl
  | succ n ih =>
    rw [List.range_succ, List.map_append, List.map_singleton, le_append_singleton, ih, Finset.sum_range_succ,
      List.length_map, List.length_range, Nat.shiftLeft_eq, pow_256_eq_two_pow]

/-- The first `n` byte lanes of a value hold the value modulo `2^(8n)` (R86). -/
theorem le_toLE (n : Nat) (v : Word) : le (toLE n v) = v.toNat % 2 ^ (8 * n) := by
  induction n with
  | zero => simp [toLE, le, Nat.mod_one]
  | succ n ih =>
    have hsplit : toLE (n + 1) v = toLE n v ++ [v.extractLsb' (8 * n) 8] := by simp [toLE, List.range_succ]
    rw [hsplit, le_append_singleton, ih, toLE_length, BitVec.extractLsb'_toNat, pow_256_eq_two_pow,
      Nat.shiftRight_eq_div_pow, Nat.mul_succ, Nat.pow_add, Nat.mod_mul, Nat.mul_comm (2 ^ (8 * n))]

/-! ### Reads of specified bytes -/

/-- A read of specified bytes returns them, whatever the draw (R10, R89). -/
theorem read_of_get? {m : Memory} {o n : Nat} {x : Nat → Byte} (h : ∀ i < n, m.get? (o + i) = some (x i))
    (event slot : Nat) : m.read event slot o n = (List.range n).map x :=
  List.map_congr_left fun i hi => byte_of_get? (h i (List.mem_range.1 hi)) event slot

/-- A write stores the value's byte lanes (R86, R90). -/
theorem get?_write_toLE (m : Memory) (o : Nat) {n i : Nat} (hi : i < n) (v : Word) :
    (m.write o (toLE n v)).get? (o + i) = some (v.extractLsb' (8 * i) 8) := by
  have hin : o ≤ o + i ∧ o + i < o + (toLE n v).length := by rw [toLE_length]; omega
  rw [get?_write, if_pos hin, Nat.add_sub_cancel_left]
  simp [toLE, hi]

theorem read_write_toLE (m : Memory) (event slot o n : Nat) (v : Word) :
    (m.write o (toLE n v)).read event slot o n = toLE n v :=
  read_of_get? (fun _ hi => get?_write_toLE m o hi v) event slot

theorem le_map_range_lt (x : Nat → Byte) (w : Width) : le ((List.range w.bytes).map x) < 2 ^ 32 := by
  calc le ((List.range w.bytes).map x) < 256 ^ w.bytes := by simpa using le_lt ((List.range w.bytes).map x)
    _ ≤ 256 ^ 4 := Nat.pow_le_pow_right (by decide) w.bytes_le
    _ = 2 ^ 32 := by decide

end Sys2Proof.Machine

open Sys2Proof.Machine

/-- Settles O43: the write stores `toLE`, and a read of those bytes returns them as `le_toLE` says. -/
theorem dmemWriteThenReadWhileIdle : Obligations.DmemWriteThenReadWhileIdle := by
  intro s t a w v hidle ha halign hend ht
  rw [hostInput_dmemWrite ha halign hend, dmemWrite_idle hidle] at ht
  subst ht
  refine ⟨fun i hi => get?_write_toLE s.dmem _ hi v, fun x hx => ?_, rfl, rfl, rfl, rfl, rfl, rfl, rfl, rfl, rfl, rfl,
    ?_⟩
  · rw [respond_dmem, get?_write, toLE_length, if_neg hx]
  · refine (hostInput_dmemRead_idle ?_ ha halign ?_).trans ?_
    · exact hidle
    · exact hend
    · rw [respond_dmem, read_write_toLE, le_toLE]

/-- Settles O46: each such access addresses nothing (`target_eq_error`). -/
theorem badAccessesGetErrorAndNoEffect : Obligations.BadAccessesGetErrorAndNoEffect :=
  fun _ _ h => hostInput_of_target_error (target_eq_error h)

/-- Settles O47, by the five cases of a bus transaction, two of which are no reads. -/
theorem readsHaveNoSideEffect : Obligations.ReadsHaveNoSideEffect := hostInput_read

/-- Settles O48: both states address the same bytes, and while BUSY a read sees only the draw (log entry 11). -/
theorem busyDmemReadsAreDraws : Obligations.BusyDmemReadsAreDraws := by
  intro s s' a w hbusy hbusy' hcfg hevent ha
  refine ⟨?_, hostInput_read_dmem s a w⟩
  by_cases h : (a.toNat - 0x10000) % w.bytes = 0 ∧ a.toNat - 0x10000 + w.bytes ≤ s.cfg.dmemBytes
  · obtain ⟨halign, hend⟩ := h
    rw [hostInput_dmemRead ha halign hend, hostInput_dmemRead ha halign (hcfg ▸ hend), dmemRead_busy hbusy,
      dmemRead_busy hbusy', hevent]
    rfl
  · have herror : target s.cfg.dmemBytes ⟨a, w, .read⟩ = .error := by rw [target_dmemWindow _ ha, if_neg h]
    rw [hostInput_of_target_error herror, hostInput_of_target_error (hcfg ▸ herror)]
    rfl

/-- Settles O59: the read returns the specified bytes (`read_of_get?`), whose value fits 32 bits. -/
theorem dmemReadWhileIdleReturnsTheBytes : Obligations.DmemReadWhileIdleReturnsTheBytes := by
  intro s a w x hidle ha halign hend hx
  refine ⟨_, hostInput_dmemRead_idle hidle ha halign hend, ?_, hostInput_read_dmem s a w⟩
  rw [read_of_get? hx, BitVec.toNat_ofNat, Nat.mod_eq_of_lt (le_map_range_lt x w), le_map_range]

/-- Settles O44: the four byte lanes are 04 03 02 01, and a read of them is those bytes whatever the draw. -/
theorem mixedWidthConsequence : Obligations.MixedWidthConsequence := by
  intro s t hidle hsize ht
  rw [w32, hostInput_dmemWrite (by decide) (by decide) (by simpa [Width.bytes] using hsize), dmemWrite_idle hidle] at ht
  subst ht
  have hbyte := fun i (hi : i < 4) => get?_write_toLE s.dmem 0 hi 0x01020304
  refine ⟨hbyte 0 (by decide), hbyte 1 (by decide), hbyte 2 (by decide), hbyte 3 (by decide), fun event slot => ?_⟩
  exact (congrArg be (read_write_toLE s.dmem event slot 0 4 0x01020304)).trans (by decide)

/-- Settles O45: the write is inside DMEM, so it is `dmemWrite`, which BUSY drops (R43, R90). -/
theorem dmemWriteWhileBusyIsDropped : Obligations.DmemWriteWhileBusyIsDropped := by
  intro s a w v hbusy ha halign hend
  rw [hostInput_dmemWrite ha halign hend, dmemWrite_busy hbusy]
  rfl
end

section
/-! The order of steps and what a step may do to a command in progress (R30, R92, R94, R411, R502). -/

namespace Sys2Proof.Machine

/-- `t` has the command in progress of `s`, with its operands, its memory and its registers (R94, R411). -/
abbrev StaysBusy (s t : State) : Prop :=
  t.busy = true ∧ t.lcmd = s.lcmd ∧ t.larg = s.larg ∧ t.lmem = s.lmem ∧ t.dmem = s.dmem ∧ t.cmd = s.cmd ∧
    t.arg = s.arg ∧ t.errcode = s.errcode ∧ t.reslen = s.reslen

/-- While BUSY one host input leaves the command in progress alone, unless it is a reset (R90, R502, R510). -/
theorem HostEffect.busy {s t : State} {x : Input} (h : HostEffect s x t) (hbusy : s.busy = true) :
    StaysBusy s t ∨ (x.Resets ∧ t.busy = false ∧ t.done = false) := by
  cases h with
  | hardReset => exact .inr ⟨.inl rfl, rfl, rfl⟩
  | softReset v hv => exact .inr ⟨.inr ⟨v, rfl, hv⟩, rfl, rfl⟩
  | start v hsrst hstart hidle => cases hidle.symm.trans hbusy
  | cmd v hidle => cases hidle.symm.trans hbusy
  | arg k v hidle => cases hidle.symm.trans hbusy
  | dmem a w v hidle => cases hidle.symm.trans hbusy
  | startDropped | irqen | status | dropped | draw | responseOnly =>
    exact .inl ⟨hbusy, rfl, rfl, rfl, rfl, rfl, rfl, rfl, rfl⟩

theorem complete_idle_done (o : CommandOutcome) (s : State) :
    (complete o s).busy = false ∧ (complete o s).done = true := by
  cases o <;> exact ⟨rfl, rfl⟩

theorem step_of_not_engineTurn {s : State} (h : engineTurn s = false) : step s = .next (hostTurn s) := by
  simp [step, h]

end Sys2Proof.Machine

open Sys2Proof.Machine

/-- Settles O55: the engine completes the command, or a host input is a reset or leaves the command alone
(`HostEffect.busy`). -/
theorem onlyCompletionOrResetEndsACommand : Obligations.OnlyCompletionOrResetEndsACommand := by
  intro s t hstep hbusy
  obtain ⟨hengine, rfl⟩ | rfl | ⟨-, x, rest, hx, heffect⟩ := step_effect hstep
  · obtain ⟨hidle, hdone⟩ := complete_idle_done (latchedOutcome s) s
    have hkept := complete_kept (latchedOutcome s) s
    exact .inr (.inl ⟨hengine, hidle, hdone, hkept.cmd, hkept.arg⟩)
  · exact .inl ⟨hbusy, rfl, rfl, rfl, rfl, rfl, rfl, rfl, rfl⟩
  · obtain hstays | ⟨hreset, hidle, hdone⟩ := heffect.busy hbusy
    · exact .inl hstays
    · exact .inr (.inr ⟨hreset.resetNext hx, hidle, hdone⟩)

/-- Settles O6: an idle block, or one with latency left and an input waiting, is not in the engine's turn. -/
theorem stepTakesTheOldestInput : Obligations.StepTakesTheOldestInput := by
  constructor
  · intro s x rest hx hwait
    have hturn : engineTurn s = false := by
      obtain hidle | hlatency := hwait
      · simp [engineTurn, hidle]
      · simp [engineTurn, hlatency, hx]
    rw [step_of_not_engineTurn hturn, hostTurn, hx]
    rfl
  · intro s hidle hnone
    rw [step_of_not_engineTurn (by simp [engineTurn, hidle]), hostTurn, hnone]
end

section
/-! The encoding of command words (R120 to R129): each command has one word, and the words of commands are the legal
ones. -/

namespace Sys2Proof.Machine

/-! ### The word of a command -/

theorem decode_encode (i : Instr) : decode (encode i) = .ok i := by
  cases i with
  | gostCfbEnc env ivgen | gostOfbEnc env ivgen => cases env <;> cases ivgen <;> rfl
  | gostCfbDec env | gostOfbDec env => cases env <;> rfl
  | _ => rfl

/-- A row's mask leaves out flag bits only (R127). -/
theorem not_mask_eq : ∀ r ∈ opcodeTable, ~~~r.mask = (BitVec.twoPow 32 8 ||| BitVec.twoPow 32 9) &&& ~~~r.mask := by
  decide

/-- The word of a row's command is the row's opcode and those flags that the row's mask leaves out (R126, R127). -/
theorem encode_build : ∀ r ∈ opcodeTable, ∀ env ivgen : Bool,
    encode (r.build env ivgen) = r.opcode ||| (flagAt 8 env ||| flagAt 9 ivgen) &&& ~~~r.mask := by
  decide

/-- A word that a row stands for is the word of the command that the row builds: the bits under its mask are the opcode,
the others are flags. -/
theorem eq_encode_of_hits {r : OpcodeRow} (hr : r ∈ opcodeTable) {w : Word} (h : r.hits w = true) :
    w = encode (r.build (w.getLsbD 8) (w.getLsbD 9)) := by
  have hopcode : w &&& r.mask = r.opcode := eq_of_beq h
  have hflags : w &&& ~~~r.mask = (flagAt 8 (w.getLsbD 8) ||| flagAt 9 (w.getLsbD 9)) &&& ~~~r.mask := by
    calc w &&& ~~~r.mask = w &&& ((BitVec.twoPow 32 8 ||| BitVec.twoPow 32 9) &&& ~~~r.mask) :=
          congrArg (w &&& ·) (not_mask_eq r hr)
      _ = _ := by rw [← BitVec.and_assoc, BitVec.and_or_distrib_left, and_flag, and_flag]
  calc w = w &&& r.mask ||| w &&& ~~~r.mask := by
        rw [← BitVec.and_or_distrib_left, BitVec.or_not_self, BitVec.and_allOnes]
    _ = _ := by rw [encode_build r hr, hopcode, hflags]

theorem eq_encode_of_decode {w : Word} {i : Instr} (h : decode w = .ok i) : w = encode i := by
  obtain ⟨r, hr, hhit, rfl⟩ := exists_row_of_decode h
  exact eq_encode_of_hits hr hhit

/-! ### The legal words -/

open Laws.LegalWord in
theorem wf_ofWord_encode (i : Instr) : (CommandWord.ofWord (encode i)).wf = true :=
  (Instr.rec (motive := Statement) nop mul mod mulmod modpow rsaEnc rsaDec gostEcbEnc gostEcbDec gostCfbEnc
    gostCfbDec gostOfbEnc gostOfbDec permEnc permDec rngFill i).1

/-- The word with the given fields (R120). -/
def wordOfFields (c : CommandWord) : Word :=
  c.rsv ++ c.frsv ++ BitVec.ofBool c.ivgen ++ BitVec.ofBool c.env ++ c.opcode

theorem ofBool_getLsbD (w : Word) (i : Nat) : BitVec.ofBool (w.getLsbD i) = w.extractLsb' i 1 := by
  apply BitVec.eq_of_getLsbD_eq
  simp

/-- The five fields make up the word: none of its bits is dropped (R120). -/
theorem wordOfFields_ofWord (w : Word) : wordOfFields (CommandWord.ofWord w) = w := by
  simp only [wordOfFields, CommandWord.ofWord, ofBool_getLsbD]
  rw [BitVec.extractLsb'_append_extractLsb'_eq_extractLsb' (show 16 = 10 + 6 from rfl),
    BitVec.extractLsb'_append_extractLsb'_eq_extractLsb' (show 10 = 9 + 1 from rfl),
    BitVec.extractLsb'_append_extractLsb'_eq_extractLsb' (show 9 = 8 + 1 from rfl),
    BitVec.extractLsb'_append_extractLsb'_eq_extractLsb' (show 8 = 0 + 8 from rfl),
    BitVec.extractLsb'_eq_self]

theorem opcodeAssigned_iff (c : CommandWord) :
    c.opcodeAssigned = true ↔ ∃ r ∈ opcodeTable, r.opcode.setWidth 8 = c.opcode := by
  rw [← List.mem_map]
  exact decide_eq_true_iff

/-- A row stands for each legal word with its opcode: its mask leaves out the flags that R127 allows. -/
theorem hits_wordOfFields : ∀ r ∈ opcodeTable, ∀ env ivgen : Bool,
    (CommandWord.mk (r.opcode.setWidth 8) env ivgen 0 0).wf = true →
      r.hits (wordOfFields ⟨r.opcode.setWidth 8, env, ivgen, 0, 0⟩) = true := by
  decide

theorem commandWord_wf_iff (c : CommandWord) : c.wf = true ↔
    c.opcodeAssigned = true ∧ c.envAllowed = true ∧ c.ivgenAllowed = true ∧ c.frsv = 0 ∧ c.rsv = 0 := by
  simp only [CommandWord.wf, CommandWord.frsvZero, CommandWord.rsvZero, Bool.and_eq_true, and_assoc, beq_iff_eq]

theorem exists_hits_of_wf {c : CommandWord} (h : c.wf = true) : ∃ r ∈ opcodeTable, r.hits (wordOfFields c) = true := by
  obtain ⟨opcode, env, ivgen, frsv, rsv⟩ := c
  obtain ⟨hopcode, -, -, rfl, rfl⟩ := (commandWord_wf_iff _).1 h
  obtain ⟨r, hr, rfl⟩ := (opcodeAssigned_iff _).1 hopcode
  exact ⟨r, hr, hits_wordOfFields r hr env ivgen h⟩

theorem exists_decode_of_hits {r : OpcodeRow} (hr : r ∈ opcodeTable) {w : Word} (h : r.hits w = true) :
    ∃ i, decode w = .ok i :=
  ⟨_, by rw [eq_encode_of_hits hr h]; exact decode_encode _⟩

/-- The decoder accepts exactly the words that pass every check of R128. -/
theorem exists_decode_iff_wf (w : Word) : (∃ i, decode w = .ok i) ↔ (CommandWord.ofWord w).wf = true := by
  constructor
  · rintro ⟨i, hi⟩
    rw [eq_encode_of_decode hi]
    exact wf_ofWord_encode i
  · intro h
    obtain ⟨r, hr, hhit⟩ := exists_hits_of_wf h
    rw [wordOfFields_ofWord] at hhit
    exact exists_decode_of_hits hr hhit

/-- An opcode list may be read as numbers. -/
theorem mem_iff_toNat_mem (b : Byte) (l : List Byte) : b ∈ l ↔ b.toNat ∈ l.map BitVec.toNat :=
  (List.mem_map_of_injective BitVec.toNat_injective).symm

/-! ### The completion of an illegal word -/

theorem latchedOutcome_of_not_decoded {s : State} (h : ¬∃ i, decode s.lcmd = .ok i) :
    latchedOutcome s = .error .illegalCommand :=
  (latchedOutcome_cases s).resolve_left fun ⟨i, hi, _⟩ => h ⟨i, hi⟩

theorem step_of_engineTurn {s : State} (h : engineTurn s = true) :
    step s = .next (complete (latchedOutcome s) s) := by
  rw [step, if_pos h, engineStep_eq]

end Sys2Proof.Machine

open Sys2Proof Sys2Proof.Machine

/-- Settles O2: the decoder is the encoder's left inverse (`decode_encode`), and a word that decodes to a command is the
word of that command (`eq_encode_of_decode`). -/
theorem decodeIsInverseOfEncode : Obligations.DecodeIsInverseOfEncode := by
  intro w i
  constructor
  · exact eq_encode_of_decode
  · rintro rfl
    exact decode_encode i

/-- Settles O3: the conditions are the checks of `CommandWord.wf`, written on the bits of the word. -/
theorem decodedWordsAreTheLegalOnes : Obligations.DecodedWordsAreTheLegalOnes := by
  intro w
  rw [exists_decode_iff_wf, commandWord_wf_iff]
  simp only [CommandWord.opcodeAssigned, CommandWord.envAllowed, CommandWord.ivgenAllowed, mem_iff_toNat_mem,
    decide_eq_true_eq, Bool.or_eq_true, Bool.not_eq_true', ← Bool.not_eq_true, ← imp_iff_not_or]
  rfl

/-- Settles O4: by O3 the latched word decodes to no command, so the engine completes with ILLEGAL_COMMAND. -/
theorem illegalWordCompletesWithItsError : Obligations.IllegalWordCompletesWithItsError := by
  intro s hturn hillegal
  have hnone : ¬∃ i, decode s.lcmd = .ok i := by
    rw [decodedWordsAreTheLegalOnes s.lcmd]
    tauto
  refine ⟨_, step_of_engineTurn hturn, ?_⟩
  rw [latchedOutcome_of_not_decoded hnone]
  exact ⟨rfl, rfl, rfl, rfl, rfl, rfl, complete_kept _ s⟩

/-- Settles O1: the decoder evaluated on each word (R126, R127, R128). -/
theorem writtenWordsDecode : Obligations.WrittenWordsDecode := by
  unfold Obligations.WrittenWordsDecode
  decide
end

section
/-! Square and multiply computes the power modulo `m` (R207, R208). -/

namespace Sys2Proof.Machine

theorem lt_two_pow_bitlen (e : Nat) : e < 2 ^ bitlen e := by
  unfold bitlen
  split
  · omega
  · exact Nat.lt_log2_self

/-- The exponent's leading bits, one more bit read (R208). -/
theorem div_two_pow_eq (e n : Nat) : e / 2 ^ n = 2 * (e / 2 ^ (n + 1)) + (e.testBit n).toNat := by
  rw [Nat.toNat_testBit, Nat.pow_succ, ← Nat.div_div_eq_div_mul]
  omega

/-- The loop's invariant: before bit `n - 1` is read, the running value is the power by the bits read so far. -/
theorem powLoop_eq (a e m n : Nat) : powLoop (a % m) e m n (a ^ (e / 2 ^ n) % m) = a ^ e % m := by
  induction n with
  | zero => simp [powLoop]
  | succ n ih =>
    rw [powLoop, ← ih, div_two_pow_eq e n]
    congr 1
    cases e.testBit n <;> simp [two_mul, pow_add, Nat.mul_mod]

theorem modPow_eq (a e m : Nat) : modPow a e m = a ^ e % m := by
  simpa [modPow, Nat.div_eq_of_lt (lt_two_pow_bitlen e)] using powLoop_eq a e m (bitlen e)

end Sys2Proof.Machine

open Sys2Proof.Machine

/-- Settles O28: the loop starts with no exponent bit read and ends with all of them read (`powLoop_eq`). -/
theorem modPowIsThePowerModulo : Obligations.ModPowIsThePowerModulo :=
  fun a e m _ => modPow_eq a e m
end

section
/-! MUL, MOD, MULMOD, MODPOW, RSA_ENC and RSA_DEC follow their rules (R200 to R210). -/

namespace Sys2Proof.Machine

/-! ### The last line of a command: the result in a given number of bytes -/

theorem rejects_of_not_ranged {i : Instr} {s : State} (h : ¬Ranged i s) : Rejects i s 0x02 :=
  rejects_of ((outcome_rangeError_iff i s).2 h)

theorem rejects_of_result {i : Instr} {s : State} {L v : Nat} (h : outcome i s = result s (toBE L v))
    (hL : length s .out < L) : Rejects i s 0x03 :=
  rejects_of (e := .outputTooSmall) (by rw [h, result_eq, toBE_length, if_neg (by omega)])

theorem commits_of_result {i : Instr} {s : State} {L v : Nat} (h : outcome i s = result s (toBE L v))
    (hL : L ≤ length s .out) (hv : v < 256 ^ L) :
    ∃ r : List Byte, r.length = L ∧ be r = v ∧ Commits i s r none := by
  have hfits : (toBE L v).length ≤ length s .out := by rwa [toBE_length]
  exact ⟨toBE L v, toBE_length L v, be_toBE hv, commits_of (by rw [h, result_eq, if_pos hfits]) hfits⟩

/-- The value of an operand fits its length (R87). -/
theorem bigint_lt (s : State) (p : Pair) : bigint s p < 256 ^ length s p := by
  simpa [bigint] using be_lt (operand s p)

theorem mod_bigint_lt {s : State} {p : Pair} (h : bigint s p ≠ 0) (x : Nat) : x % bigint s p < 256 ^ length s p :=
  (Nat.mod_lt x (Nat.pos_of_ne_zero h)).trans (bigint_lt s p)

theorem mul_bigint_lt (s : State) (p q : Pair) : bigint s p * bigint s q < 256 ^ (length s p + length s q) := by
  rw [pow_add]
  exact Nat.mul_lt_mul'' (bigint_lt s p) (bigint_lt s q)

/-- The last line of every big-integer command but MUL: `x` modulo the modulus, in the modulus' length (R205, R206, R207). -/
def modularResult (x : Nat) (s : State) : CommandOutcome := result s (toBE (length s .m) (x % bigint s .m))

theorem rejects_of_modularResult {i : Instr} {s : State} {x : Nat} (h : outcome i s = modularResult x s)
    (hlt : length s .out < length s .m) : Rejects i s 0x03 :=
  rejects_of_result h hlt

theorem commits_of_modularResult {i : Instr} {s : State} {x : Nat} (h : outcome i s = modularResult x s)
    (h0 : bigint s .m ≠ 0) (hfit : length s .m ≤ length s .out) :
    ∃ r : List Byte, r.length = length s .m ∧ be r = x % bigint s .m ∧ Commits i s r none :=
  commits_of_result h hfit (mod_bigint_lt h0 x)

/-! ### MUL and MOD: the checks in their order -/

/-- R204, check by check. -/
theorem outcome_mul (s : State) : outcome .mul s =
    if Ranged .mul s then
      if length s .a ≤ s.cfg.maxBytes ∧ length s .b ≤ s.cfg.maxBytes then
        result s (toBE (length s .a + length s .b) (bigint s .a * bigint s .b))
      else .error .operandTooLarge
    else .error .rangeError := by
  simp [outcome, mulOutcome, chk_eq, sizeLimit_eq, Ranged, usedPairs, ite_and]

/-- R205, check by check. -/
theorem outcome_mod (s : State) : outcome .mod s =
    if Ranged .mod s then
      if length s .a ≤ 2 * s.cfg.maxBytes ∧ length s .m ≤ s.cfg.maxBytes then
        if bigint s .m ≠ 0 then modularResult (bigint s .a) s else .error .divideByZero
      else .error .operandTooLarge
    else .error .rangeError := by
  simp [outcome, modOutcome, modularResult, chk_eq, sizeLimit_eq, Ranged, usedPairs, ite_and]

/-! ### MULMOD, MODPOW, RSA_ENC and RSA_DEC: the shared checks in their order -/

/-- The sizes that MULMOD, MODPOW, RSA_ENC and RSA_DEC allow (R201). -/
abbrev SizesFit (s : State) : Prop :=
  length s .a ≤ s.cfg.maxBytes ∧ length s .b ≤ s.cfg.maxBytes ∧ length s .m ≤ s.cfg.maxBytes

/-- The command `i` uses all four pairs, and its pseudocode is the shared checks and then `f`. -/
structure ThreeOperand (i : Instr) (f : State → CommandOutcome) : Prop where
  pairs : usedPairs i = [.a, .b, .m, .out]
  outcome_eq : ∀ s : State, outcome i s = threeOperandChecks s >>= fun _ => f s

/-- The lines of RSA_ENC and RSA_DEC after the shared checks (R209, R210). -/
def rsaResult (tooLarge : ErrCode) (s : State) : CommandOutcome :=
  if bigint s .a < bigint s .m then modularResult (bigint s .a ^ bigint s .b) s else .error tooLarge

theorem threeOperand_mulmod : ThreeOperand .mulmod (fun s => modularResult (bigint s .a * bigint s .b) s) :=
  ⟨rfl, fun _ => rfl⟩

theorem threeOperand_modpow : ThreeOperand .modpow (fun s => modularResult (bigint s .a ^ bigint s .b) s) :=
  ⟨rfl, fun s => by simp only [outcome, modpowOutcome, modularResult, modPow_eq]⟩

theorem rsaOutcome_eq (tooLarge : ErrCode) (s : State) :
    rsaOutcome tooLarge s = threeOperandChecks s >>= fun _ => rsaResult tooLarge s := by
  simp only [rsaOutcome, rsaResult, modularResult, require_bind, modPow_eq]

theorem threeOperand_rsaEnc : ThreeOperand .rsaEnc (rsaResult .encodingError) :=
  ⟨rfl, rsaOutcome_eq .encodingError⟩

theorem threeOperand_rsaDec : ThreeOperand .rsaDec (rsaResult .decryptionError) :=
  ⟨rfl, rsaOutcome_eq .decryptionError⟩

section
variable {i : Instr} {f : State → CommandOutcome} {s : State} (hi : ThreeOperand i f)
include hi

/-- The shared checks of R206, R207, R209 and R210, check by check. -/
theorem ThreeOperand.outcome_cases : outcome i s =
    if Ranged i s then
      if SizesFit s then if bigint s .m ≠ 0 then f s else .error .divideByZero
      else .error .operandTooLarge
    else .error .rangeError := by
  simp [hi.outcome_eq, threeOperandChecks, chk_eq, sizeLimit_eq, Ranged, hi.pairs, ite_and]

theorem ThreeOperand.rejects_tooLarge (hr : Ranged i s)
    (h : s.cfg.maxBytes < length s .a ∨ s.cfg.maxBytes < length s .b ∨ s.cfg.maxBytes < length s .m) :
    Rejects i s 0x04 :=
  rejects_of (e := .operandTooLarge) (by rw [hi.outcome_cases, if_pos hr, if_neg (by omega)])

theorem ThreeOperand.rejects_zeroModulus (hr : Ranged i s) (hs : SizesFit s) (hm : bigint s .m = 0) :
    Rejects i s 0x05 :=
  rejects_of (e := .divideByZero) (by rw [hi.outcome_cases, if_pos hr, if_pos hs, if_neg (not_not.2 hm)])

theorem ThreeOperand.outcome_checked (hr : Ranged i s) (hs : SizesFit s) (hm : bigint s .m ≠ 0) :
    outcome i s = f s := by
  rw [hi.outcome_cases, if_pos hr, if_pos hs, if_pos hm]

theorem ThreeOperand.of_ok {r : Success} (h : outcome i s = .ok r) :
    SizesFit s ∧ bigint s .m ≠ 0 ∧ f s = .ok r := by
  simp only [hi.outcome_cases, check_eq_ok] at h
  obtain ⟨-, h⟩ := h
  exact h
end

/-- MULMOD and MODPOW, by the number they reduce (R206, R207). -/
theorem modular_rule {i : Instr} {x : State → Nat} (hi : ThreeOperand i (fun s => modularResult (x s) s)) (s : State) :
    (¬Ranged i s → Rejects i s 0x02) ∧
    (Ranged i s →
      (s.cfg.maxBytes < length s .a ∨ s.cfg.maxBytes < length s .b ∨ s.cfg.maxBytes < length s .m) →
      Rejects i s 0x04) ∧
    (Ranged i s → length s .a ≤ s.cfg.maxBytes → length s .b ≤ s.cfg.maxBytes → length s .m ≤ s.cfg.maxBytes →
      (bigint s .m = 0 → Rejects i s 0x05) ∧
      (bigint s .m ≠ 0 → length s .out < length s .m → Rejects i s 0x03) ∧
      (bigint s .m ≠ 0 → length s .m ≤ length s .out →
        ∃ r : List Byte, r.length = length s .m ∧ be r = x s % bigint s .m ∧ Commits i s r none)) := by
  refine ⟨rejects_of_not_ranged, hi.rejects_tooLarge, fun hr ha hb hm => ?_⟩
  have hs : SizesFit s := ⟨ha, hb, hm⟩
  exact ⟨hi.rejects_zeroModulus hr hs, fun h0 => rejects_of_modularResult (hi.outcome_checked hr hs h0),
    fun h0 => commits_of_modularResult (hi.outcome_checked hr hs h0) h0⟩

/-- RSA_ENC and RSA_DEC, by the code they raise for an input not below the modulus (R209, R210). -/
theorem rsa_rule {i : Instr} {tooLarge : ErrCode} (hi : ThreeOperand i (rsaResult tooLarge)) (s : State) :
    (¬Ranged i s → Rejects i s 0x02) ∧
    (Ranged i s →
      (s.cfg.maxBytes < length s .a ∨ s.cfg.maxBytes < length s .b ∨ s.cfg.maxBytes < length s .m) →
      Rejects i s 0x04) ∧
    (Ranged i s → length s .a ≤ s.cfg.maxBytes → length s .b ≤ s.cfg.maxBytes → length s .m ≤ s.cfg.maxBytes →
      (bigint s .m = 0 → Rejects i s 0x05) ∧
      (bigint s .m ≠ 0 → bigint s .m ≤ bigint s .a → Rejects i s tooLarge.code) ∧
      (bigint s .a < bigint s .m → length s .out < length s .m → Rejects i s 0x03) ∧
      (bigint s .a < bigint s .m → length s .m ≤ length s .out →
        ∃ r : List Byte, r.length = length s .m ∧ be r = bigint s .a ^ bigint s .b % bigint s .m ∧
          Commits i s r none)) := by
  refine ⟨rejects_of_not_ranged, hi.rejects_tooLarge, fun hr ha hb hm => ?_⟩
  have hs : SizesFit s := ⟨ha, hb, hm⟩
  have htooLarge (h0 : bigint s .m ≠ 0) (hle : bigint s .m ≤ bigint s .a) : outcome i s = .error tooLarge :=
    (hi.outcome_checked hr hs h0).trans (if_neg (Nat.not_lt.2 hle))
  have hpower (hlt : bigint s .a < bigint s .m) : outcome i s = modularResult (bigint s .a ^ bigint s .b) s :=
    (hi.outcome_checked hr hs (Nat.ne_zero_of_lt hlt)).trans (if_pos hlt)
  exact ⟨hi.rejects_zeroModulus hr hs, fun h0 hle => rejects_of (htooLarge h0 hle),
    fun hlt => rejects_of_modularResult (hpower hlt),
    fun hlt => commits_of_modularResult (hpower hlt) (Nat.ne_zero_of_lt hlt)⟩

end Sys2Proof.Machine

open Sys2Proof Sys2Proof.Machine

/-- Settles O13: the checks in R204's order (`outcome_mul`); the product fits its length. -/
theorem mulFollowsItsRule : Obligations.MulFollowsItsRule := by
  refine ⟨decode_encode .mul, fun s => ⟨rejects_of_not_ranged, fun hr h => ?_, fun hr ha hb => ?_,
    fun hr ha hb hfit => ?_⟩⟩
  · exact rejects_of (e := .operandTooLarge) (by rw [outcome_mul, if_pos hr, if_neg (by omega)])
  · exact rejects_of_result (by rw [outcome_mul, if_pos hr, if_pos ⟨ha, hb⟩])
  · exact commits_of_result (by rw [outcome_mul, if_pos hr, if_pos ⟨ha, hb⟩]) hfit (mul_bigint_lt s .a .b)

/-- Settles O14: the checks in R205's order (`outcome_mod`); the remainder fits the modulus' length. -/
theorem modFollowsItsRule : Obligations.ModFollowsItsRule := by
  refine ⟨decode_encode .mod, fun s => ⟨rejects_of_not_ranged, fun hr h => ?_, fun hr ha hm => ?_⟩⟩
  · exact rejects_of (e := .operandTooLarge) (by rw [outcome_mod, if_pos hr, if_neg (by omega)])
  · have hremainder (h0 : bigint s .m ≠ 0) : outcome .mod s = modularResult (bigint s .a) s := by
      rw [outcome_mod, if_pos hr, if_pos ⟨ha, hm⟩, if_pos h0]
    refine ⟨fun h0 => ?_, fun h0 => rejects_of_modularResult (hremainder h0),
      fun h0 => commits_of_modularResult (hremainder h0) h0⟩
    exact rejects_of (e := .divideByZero) (by rw [outcome_mod, if_pos hr, if_pos ⟨ha, hm⟩, if_neg (not_not.2 h0)])

/-- Settles O15: `modular_rule` with the product. -/
theorem mulmodFollowsItsRule : Obligations.MulmodFollowsItsRule :=
  ⟨decode_encode .mulmod, modular_rule threeOperand_mulmod⟩

/-- Settles O16: `modular_rule` with the power, which the loop of R208 computes (`modPow_eq`). -/
theorem modpowFollowsItsRule : Obligations.ModpowFollowsItsRule :=
  ⟨decode_encode .modpow, modular_rule threeOperand_modpow⟩

/-- Settles O17: `rsa_rule` with ENCODING_ERROR. -/
theorem rsaEncFollowsItsRule : Obligations.RsaEncFollowsItsRule :=
  ⟨decode_encode .rsaEnc, rsa_rule threeOperand_rsaEnc⟩

/-- Settles O18: `rsa_rule` with DECRYPTION_ERROR. -/
theorem rsaDecFollowsItsRule : Obligations.RsaDecFollowsItsRule :=
  ⟨decode_encode .rsaDec, rsa_rule threeOperand_rsaDec⟩
end

section
/-! RSA_DEC undoes RSA_ENC for a valid key (R211, R212). -/

namespace Sys2Proof.Machine

/-! ### The key relation -/

/-- Fermat's theorem for an exponent that is 1 modulo `p - 1`; no condition on `a`. -/
theorem pow_modEq_self {p k : Nat} (hp : p.Prime) (hk0 : 0 < k) (hk : k ≡ 1 [MOD p - 1]) (a : Nat) :
    a ^ k ≡ a [MOD p] := by
  have hdvd : p - 1 ∣ k - 1 := (Nat.modEq_iff_dvd' hk0).1 hk.symm
  have hint : (a : Int) ^ k ≡ a ^ 1 [ZMOD p] := Int.ModEq.pow_eq_pow hp hdvd hk0 one_pos a
  rw [pow_one] at hint
  exact_mod_cast hint

/-- An exponent of a valid key pair is not 0: the lcm is 1 only for `p = q = 2`. -/
theorem pos_of_modEq_one_lcm {p q k : Nat} (hpq : p ≠ q)
    (hk : k ≡ 1 [MOD Nat.lcm (p - 1) (q - 1)]) : 0 < k := by
  refine Nat.pos_of_ne_zero fun h0 => hpq ?_
  have hone : Nat.lcm (p - 1) (q - 1) = 1 := Nat.dvd_one.1 ((Nat.modEq_iff_dvd' (Nat.zero_le 1)).1 (h0 ▸ hk))
  obtain ⟨hp1, hq1⟩ : p - 1 = 1 ∧ q - 1 = 1 := Nat.lcm_eq_one_iff.1 hone
  omega

/-- R212's arithmetic: for a valid key the two powers undo each other on inputs below `n`. -/
theorem rsa_pow_pow_mod {p q e d a : Nat} (hp : p.Prime) (hq : q.Prime) (hpq : p ≠ q)
    (hed : e * d ≡ 1 [MOD Nat.lcm (p - 1) (q - 1)]) (ha : a < p * q) :
    (a ^ e % (p * q)) ^ d % (p * q) = a := by
  have hpos : 0 < e * d := pos_of_modEq_one_lcm hpq hed
  have hmodp := pow_modEq_self hp hpos (hed.of_dvd (Nat.dvd_lcm_left _ _)) a
  have hmodq := pow_modEq_self hq hpos (hed.of_dvd (Nat.dvd_lcm_right _ _)) a
  have hmod : a ^ (e * d) ≡ a [MOD p * q] :=
    (Nat.modEq_and_modEq_iff_modEq_mul ((Nat.coprime_primes hp hq).2 hpq)).1 ⟨hmodp, hmodq⟩
  calc (a ^ e % (p * q)) ^ d % (p * q) = a ^ (e * d) % (p * q) := by rw [← Nat.pow_mod, ← pow_mul]
    _ = a := Nat.mod_eq_of_modEq hmod ha

/-! ### What RSA_ENC commits -/

/-- A string whose bytes stand in DMEM after a commit, and whose length RESLEN holds, is the committed result. -/
theorem eq_of_committed {s : State} {r y : List Byte} (hfits : r.length ≤ length s .out)
    (hlen : y.length = (completeOk ⟨r, none⟩ s).reslen.toNat)
    (hy : ∀ j < y.length, (completeOk ⟨r, none⟩ s).dmem.get? (offset s .out + j) = y[j]?) : y = r := by
  have hlen : y.length = r.length := hlen.trans (completeOk_reslen_toNat hfits)
  refine List.ext_getElem? fun j => ?_
  by_cases hj : j < y.length
  · rw [← hy j hj, completeOk_dmem_none, get?_write, if_pos (by omega), Nat.add_sub_cancel_left]
  · rw [List.getElem?_eq_none (by omega), List.getElem?_eq_none (by omega)]

/-- A successful RSA_ENC: its input was below the modulus, and it committed the power in the modulus' length (R209). -/
theorem rsaEnc_ok {s : State} {r : Success} (h : outcome .rsaEnc s = .ok r) :
    SizesFit s ∧ bigint s .a < bigint s .m ∧
      r = ⟨toBE (length s .m) (bigint s .a ^ bigint s .b % bigint s .m), none⟩ := by
  obtain ⟨hsizes, -, hf⟩ := threeOperand_rsaEnc.of_ok h
  simp only [rsaResult, modularResult, result_eq, check_eq_ok] at hf
  obtain ⟨hlt, -, hr⟩ := hf
  exact ⟨hsizes, hlt, (Except.ok.inj hr).symm⟩

end Sys2Proof.Machine

open Sys2Proof Sys2Proof.Machine

/-- Settles O29: RSA_ENC committed the power (`rsaEnc_ok`), so RSA_DEC follows its rule (O18) on an input below the same
modulus, and the second power undoes the first (`rsa_pow_pow_mod`). -/
theorem rsaRoundTrip : Obligations.RsaRoundTrip := by
  intro s t s' p q e d y hp hq hpq hed hn he hexec herr hylen hy hranged ha hd hmop hcfg hb hfit
  obtain ⟨r, hr, rfl⟩ | ⟨_, -, rfl⟩ := exec_cases hexec
  · obtain ⟨⟨-, -, hmsize⟩, hlt, rfl⟩ := rsaEnc_ok hr
    have hmlen : length s' .m = length s .m := by rw [← operand_length, hmop, operand_length]
    have hm : bigint s' .m = bigint s .m := by rw [bigint, hmop, bigint]
    obtain rfl := eq_of_committed (outcome_ok hr).fits hylen hy
    have halen : length s' .a = length s .m := by rw [← operand_length, ha, toBE_length]
    have hpos : bigint s .m ≠ 0 := Nat.ne_zero_of_lt hlt
    have haval : bigint s' .a = bigint s .a ^ e % bigint s .m := by
      rw [bigint, ha, be_toBE (mod_bigint_lt hpos _), he]
    have hlt' : bigint s' .a < bigint s' .m := by
      rw [haval, hm]
      exact Nat.mod_lt _ (Nat.pos_of_ne_zero hpos)
    obtain ⟨-, -, hrule⟩ := rsa_rule threeOperand_rsaDec s'
    obtain ⟨-, -, -, hcommits⟩ := hrule hranged (by rwa [halen, hcfg]) hb (by rwa [hmlen, hcfg])
    have hback : bigint s' .a ^ bigint s' .b % bigint s' .m = bigint s .a := by
      rw [haval, hd, hm, hn]
      exact rsa_pow_pow_mod hp hq hpq hed (hn ▸ hlt)
    rw [← hback]
    exact hcommits hlt' hfit
  · cases herr
end

section
/-! The GOST block cipher (R250 to R257): a schedule and its reverse undo each other, whatever the round function. -/

namespace Sys2Proof.Machine

/-! ### The Feistel rounds -/

/-- One round with its swap (R254). -/
def feistelRound (sbox : Sbox) (h : Word × Word) (k : Word) : Word × Word := (h.2, roundG sbox k h.2 ^^^ h.1)

/-- The last round does not swap: it is a round whose swap is undone (R254). -/
theorem feistelRounds_eq (sbox : Sbox) {ks : List Word} (hks : ks ≠ []) (h : Word × Word) :
    feistelRounds sbox ks h = (ks.foldl (feistelRound sbox) h).swap := by
  induction ks generalizing h with
  | nil => exact absurd rfl hks
  | cons k ks ih =>
    cases ks with
    | nil => rfl
    | cons k' ks => exact ih (List.cons_ne_nil k' ks) (feistelRound sbox h k)

/-- A round undoes itself between two swaps. -/
theorem feistelRound_swap_feistelRound (sbox : Sbox) (h : Word × Word) (k : Word) :
    feistelRound sbox (feistelRound sbox h k).swap k = h.swap := by
  simp only [feistelRound, Prod.swap, ← BitVec.xor_assoc, BitVec.xor_self, BitVec.zero_xor]

theorem foldl_feistelRound_reverse (sbox : Sbox) (ks : List Word) (h : Word × Word) :
    ks.reverse.foldl (feistelRound sbox) (ks.foldl (feistelRound sbox) h).swap = h.swap := by
  induction ks generalizing h with
  | nil => rfl
  | cons k ks ih =>
    rw [List.reverse_cons, List.foldl_append, List.foldl_cons (b := h), ih]
    exact feistelRound_swap_feistelRound sbox h k

theorem feistelRounds_reverse (sbox : Sbox) (ks : List Word) (h : Word × Word) :
    feistelRounds sbox ks.reverse (feistelRounds sbox ks h) = h := by
  by_cases hks : ks = []
  · subst hks; rfl
  · rw [feistelRounds_eq sbox hks, feistelRounds_eq sbox (List.reverse_ne_nil_iff.2 hks), foldl_feistelRound_reverse,
      Prod.swap_swap]

/-- The rounds of a schedule are undone by the schedule read backwards (R257). -/
theorem feistel_reverse (sbox : Sbox) (ks : List Word) (x : BitVec 64) :
    feistel sbox ks.reverse (feistel sbox ks x) = x := by
  have hhi (a b : Word) : (a ++ b).extractLsb' 32 32 = a := BitVec.extractLsb'_append_eq_left
  have hlo (a b : Word) : (a ++ b).extractLsb' 0 32 = b := BitVec.extractLsb'_append_eq_right
  have hjoin : x.extractLsb' 32 32 ++ x.extractLsb' 0 32 = x := by
    rw [BitVec.extractLsb'_append_extractLsb'_eq_extractLsb' (by rfl), BitVec.extractLsb'_eq_self]
  simp only [feistel, hhi, hlo, Prod.mk.eta, feistelRounds_reverse, hjoin]

/-! ### The two schedules -/

theorem encSchedule_reverse (key : List Byte) : (encSchedule key).reverse = decSchedule key := by
  simp only [encSchedule, decSchedule, List.reverse_append, List.reverse_reverse, List.append_assoc]

theorem decSchedule_reverse (key : List Byte) : (decSchedule key).reverse = encSchedule key := by
  rw [← encSchedule_reverse, List.reverse_reverse]

theorem feistel_decSchedule_encSchedule (sbox : Sbox) (key : List Byte) (x : BitVec 64) :
    feistel sbox (decSchedule key) (feistel sbox (encSchedule key) x) = x := by
  rw [← encSchedule_reverse, feistel_reverse]

theorem feistel_encSchedule_decSchedule (sbox : Sbox) (key : List Byte) (x : BitVec 64) :
    feistel sbox (encSchedule key) (feistel sbox (decSchedule key) x) = x := by
  rw [← decSchedule_reverse, feistel_reverse]

theorem subkeys_zero : subkeys (List.replicate 32 0) = List.replicate 8 0 := by decide

/-! ### Blocks of bytes -/

@[simp] theorem encryptBlock_length (sbox : Sbox) (key b : List Byte) : (encryptBlock sbox key b).length = 8 :=
  toBE_length 8 _

@[simp] theorem decryptBlock_length (sbox : Sbox) (key b : List Byte) : (decryptBlock sbox key b).length = 8 :=
  toBE_length 8 _

/-- Big-endian in and out loses nothing on 8-byte blocks (R9, R250). -/
theorem decryptBlock_encryptBlock (sbox : Sbox) (key : List Byte) {b : List Byte} (hb : b.length = 8) :
    decryptBlock sbox key (encryptBlock sbox key b) = b := by
  have hback (y : BitVec 64) : BitVec.ofNat 64 (be (toBE 8 y.toNat)) = y := by
    rw [be_toBE y.isLt, BitVec.ofNat_toNat, BitVec.setWidth_eq]
  have hlt : be b < 2 ^ 64 := (be_lt b).trans_eq (by norm_num [hb])
  rw [decryptBlock, encryptBlock, cipherBlock, cipherBlock, hback, feistel_decSchedule_encSchedule,
    BitVec.toNat_ofNat, Nat.mod_eq_of_lt hlt, ← hb, toBE_be]

end Sys2Proof.Machine

open Sys2Proof Sys2Proof.Machine

/-- Settles O31: each schedule is the other one reversed (`feistel_reverse`); the eight zero subkeys read the same both
ways. -/
theorem gostDecryptionInvertsEncryption : Obligations.GostDecryptionInvertsEncryption := by
  refine ⟨fun sbox key x => ⟨?_, ?_⟩, ?_, ?_⟩
  · exact feistel_decSchedule_encSchedule sbox key x
  · exact feistel_encSchedule_decSchedule sbox key x
  · rw [encSchedule, decSchedule, subkeys_zero, List.reverse_replicate]
  · decide +kernel

/-- Settles O30: the table and the round evaluated at the rules' inputs (R252, R253). -/
theorem gostCheckValues : Obligations.GostCheckValues := by
  unfold Obligations.GostCheckValues
  decide
end

section
/-! Strings cut into 8-byte blocks, and the modes that work on them block by block (R259, R262, R263, R269). -/

namespace Sys2Proof.Machine

/-! ### Blocks of a string -/

theorem block_succ (x : List Byte) (j : Nat) : block x (j + 1) = block (x.drop 8) j := by
  rw [block, block, List.drop_drop, Nat.mul_succ, Nat.add_comm]

/-- Only a last block is shorter than 8 bytes, so the blocks already made and those still to come do not mix (R262). -/
theorem take_drop_append {y z x : List Byte} (hy : y.length = min 8 x.length) (hz : z.length = (x.drop 8).length) :
    (y ++ z).take 8 = y ∧ (y ++ z).drop 8 = z := by
  rw [List.length_drop] at hz
  by_cases hx : 8 ≤ x.length
  · have hy8 : y.length = 8 := by omega
    exact ⟨List.take_left' hy8, List.drop_left' hy8⟩
  · have hz0 : z = [] := List.length_eq_zero_iff.1 (by omega)
    have hy8 : y.length ≤ 8 := by omega
    rw [hz0, List.append_nil]
    exact ⟨List.take_of_length_le hy8, List.drop_of_length_le hy8⟩

/-! ### Block by block (R259, R260) -/

theorem block_mapBlocks {f : List Byte → List Byte} (hf : ∀ b, (f b).length = 8) {n j : Nat} (hj : j < n)
    (x : List Byte) : block (mapBlocks f 8 n x) j = f (block x j) := by
  induction n generalizing x j with
  | zero => exact absurd hj (Nat.not_lt_zero j)
  | succ n ih =>
    cases j with
    | zero => exact List.take_left' (hf _)
    | succ j => rw [block_succ, block_succ, mapBlocks, List.drop_left' (hf _), ih (Nat.lt_of_succ_lt_succ hj)]

/-- What undoes each block undoes a string of whole blocks. -/
theorem mapBlocks_mapBlocks {f g : List Byte → List Byte} (hf : ∀ b, (f b).length = 8)
    (hgf : ∀ b, b.length = 8 → g (f b) = b) (n : Nat) (x : List Byte) (hx : x.length = 8 * n) :
    mapBlocks g 8 n (mapBlocks f 8 n x) = x := by
  induction n generalizing x with
  | zero => exact (List.length_eq_zero_iff.1 hx).symm
  | succ n ih =>
    have htake : (x.take 8).length = 8 := by rw [List.length_take]; omega
    have hdrop : (x.drop 8).length = 8 * n := by rw [List.length_drop]; omega
    rw [mapBlocks, mapBlocks, List.take_left' (hf _), List.drop_left' (hf _), hgf _ htake, ih _ hdrop,
      List.take_append_drop]

/-! ### The stream modes: one loop for both (R262, R263) -/

/-- The loop of R262 and R263: a block of data is xored with the enciphered register, and the next register is made of the
data block and its keystream block. -/
def streamLoop (E : List Byte → List Byte) (next : List Byte → List Byte → List Byte) :
    Nat → List Byte → List Byte → List Byte
  | 0, _, _ => []
  | n + 1, reg, x =>
    xorBytes (x.take 8) (E reg) ++ streamLoop E next n (next (x.take 8) (E reg)) (x.drop 8)

/-- The register before block `j` of that loop. -/
def streamReg (E : List Byte → List Byte) (next : List Byte → List Byte → List Byte) (iv x : List Byte) :
    Nat → List Byte
  | 0 => iv
  | j + 1 => next (block x j) (E (streamReg E next iv x j))

/-- Cipher feedback feeds back the ciphertext block, which is the output block when enciphering (R262). -/
def cfbNext (enc : Bool) (b k : List Byte) : List Byte := if enc then xorBytes b k else b

/-- Output feedback feeds back the keystream block (R263). -/
def ofbNext (_ k : List Byte) : List Byte := k

/-- The loop over all blocks of the data. -/
def stream (E : List Byte → List Byte) (next : List Byte → List Byte → List Byte) (iv x : List Byte) : List Byte :=
  streamLoop E next (streamBlocks x) iv x

theorem cfb_eq (sbox : Sbox) (enc : Bool) (key iv x : List Byte) :
    cfb sbox enc key iv x = stream (encryptBlock sbox key) (cfbNext enc) iv x := by
  unfold cfb stream
  generalize streamBlocks x = n
  induction n generalizing iv x with
  | zero => rfl
  | succ n ih => rw [cfbLoop, streamLoop, ih]; rfl

theorem ofb_eq (sbox : Sbox) (key iv x : List Byte) :
    ofb sbox key iv x = stream (encryptBlock sbox key) ofbNext iv x := by
  unfold ofb stream
  generalize streamBlocks x = n
  induction n generalizing iv x with
  | zero => rfl
  | succ n ih => rw [ofbLoop, streamLoop, ih]; rfl

theorem length_le_streamBlocks (x : List Byte) : x.length ≤ 8 * streamBlocks x := by
  unfold streamBlocks; omega

theorem streamReg_succ (E : List Byte → List Byte) (next : List Byte → List Byte → List Byte) (iv x : List Byte)
    (j : Nat) : streamReg E next iv x (j + 1) = streamReg E next (next (x.take 8) (E iv)) (x.drop 8) j := by
  induction j with
  | zero => rfl
  | succ j ih => rw [streamReg, ih, block_succ, streamReg]

section
variable {E : List Byte → List Byte} (hE : ∀ b, (E b).length = 8)
include hE

theorem xorBytes_keystream_length (x reg : List Byte) : (xorBytes (x.take 8) (E reg)).length = min 8 x.length := by
  rw [xorBytes_length, hE, List.length_take]; omega

theorem streamLoop_length (next : List Byte → List Byte → List Byte) (n : Nat) (reg x : List Byte)
    (hx : x.length ≤ 8 * n) : (streamLoop E next n reg x).length = x.length := by
  induction n generalizing reg x with
  | zero => rw [streamLoop, List.length_nil]; omega
  | succ n ih =>
    have hdrop : (x.drop 8).length ≤ 8 * n := by rw [List.length_drop]; omega
    rw [streamLoop, List.length_append, ih _ _ hdrop, xorBytes_keystream_length hE, List.length_drop]
    omega

/-- One turn of the loop: its first block, and the rest as a loop of its own. -/
theorem streamLoop_take_drop (next : List Byte → List Byte → List Byte) (n : Nat) (reg x : List Byte)
    (hx : x.length ≤ 8 * (n + 1)) :
    (streamLoop E next (n + 1) reg x).take 8 = xorBytes (x.take 8) (E reg) ∧
      (streamLoop E next (n + 1) reg x).drop 8 = streamLoop E next n (next (x.take 8) (E reg)) (x.drop 8) :=
  take_drop_append (xorBytes_keystream_length hE x reg)
    (streamLoop_length hE next n _ _ (by rw [List.length_drop]; omega))

theorem block_streamLoop (next : List Byte → List Byte → List Byte) (n : Nat) (iv x : List Byte)
    (hx : x.length ≤ 8 * n) (j : Nat) :
    block (streamLoop E next n iv x) j = xorBytes (block x j) (E (streamReg E next iv x j)) := by
  induction n generalizing iv x j with
  | zero =>
    obtain rfl : x = [] := List.length_eq_zero_iff.1 (by omega)
    simp [streamLoop, block, xorBytes]
  | succ n ih =>
    obtain ⟨htake, hdrop⟩ := streamLoop_take_drop hE next n iv x hx
    cases j with
    | zero => exact htake
    | succ j => rw [block_succ, hdrop, ih _ _ (by rw [List.length_drop]; omega), block_succ, streamReg_succ]

/-- The loop undoes another one when, from a block and its keystream block, both make the same next register. -/
theorem streamLoop_streamLoop {next next' : List Byte → List Byte → List Byte}
    (hnext : ∀ b k, next' (xorBytes b k) k = next b k) (n : Nat) (reg x : List Byte) (hx : x.length ≤ 8 * n) :
    streamLoop E next' n reg (streamLoop E next n reg x) = x := by
  induction n generalizing reg x with
  | zero => exact (List.length_eq_zero_iff.1 (by omega)).symm
  | succ n ih =>
    obtain ⟨htake, hdrop⟩ := streamLoop_take_drop hE next n reg x hx
    have hshort : (x.take 8).length ≤ (E reg).length := by rw [hE, List.length_take]; omega
    rw [streamLoop, htake, hdrop, hnext, ih _ _ (by rw [List.length_drop]; omega), xorBytes_xorBytes _ _ hshort,
      List.take_append_drop]

theorem stream_length (next : List Byte → List Byte → List Byte) (iv x : List Byte) :
    (stream E next iv x).length = x.length :=
  streamLoop_length hE next _ iv x (length_le_streamBlocks x)

theorem block_stream (next : List Byte → List Byte → List Byte) (iv x : List Byte) (j : Nat) :
    block (stream E next iv x) j = xorBytes (block x j) (E (streamReg E next iv x j)) :=
  block_streamLoop hE next _ iv x (length_le_streamBlocks x) j

theorem stream_stream {next next' : List Byte → List Byte → List Byte}
    (hnext : ∀ b k, next' (xorBytes b k) k = next b k) (iv x : List Byte) :
    stream E next' iv (stream E next iv x) = x := by
  have hblocks : streamBlocks (stream E next iv x) = streamBlocks x := by
    rw [streamBlocks, stream_length hE, streamBlocks]
  rw [stream, hblocks]
  exact streamLoop_streamLoop hE hnext _ iv x (length_le_streamBlocks x)

end

/-! ### What a stream mode computes -/

/-- `mode` keeps the length, and block `j` of its result is the data's block xored with keystream block
`keystream key iv c j`, where `c` is the ciphertext: the result when enciphering, the data when deciphering. -/
structure StreamMode (enc : Bool) (keystream : List Byte → List Byte → List Byte → Nat → List Byte)
    (mode : List Byte → List Byte → List Byte → List Byte) : Prop where
  length_eq : ∀ key iv x, (mode key iv x).length = x.length
  block_eq : ∀ key iv x j,
    block (mode key iv x) j = xorBytes (block x j) (keystream key iv (if enc then mode key iv x else x) j)

/-- Keystream block `j` of cipher feedback: `E_K` of the IV or of the ciphertext block before (R262). -/
def cfbKeystream (sbox : Sbox) (key iv c : List Byte) (j : Nat) : List Byte :=
  encryptBlock sbox key (if j = 0 then iv else block c (j - 1))

/-- Keystream block `j` of output feedback: `E_K` applied `j+1` times to the IV (R263). -/
def ofbKeystream (sbox : Sbox) (key iv _c : List Byte) (j : Nat) : List Byte := (encryptBlock sbox key)^[j + 1] iv

theorem streamMode_cfb (sbox : Sbox) (enc : Bool) : StreamMode enc (cfbKeystream sbox) (cfb sbox enc) where
  length_eq key iv x := by rw [cfb_eq, stream_length (encryptBlock_length sbox key)]
  block_eq key iv x := by
    have hblock (j : Nat) : block (cfb sbox enc key iv x) j =
        xorBytes (block x j) (encryptBlock sbox key (streamReg (encryptBlock sbox key) (cfbNext enc) iv x j)) := by
      rw [cfb_eq, block_stream (encryptBlock_length sbox key)]
    intro j
    rw [hblock, cfbKeystream]
    cases j with
    | zero => rfl
    | succ j =>
      rw [if_neg (Nat.succ_ne_zero j), Nat.add_sub_cancel, streamReg]
      cases enc with
      | false => rfl
      | true => rw [if_pos rfl, hblock]; rfl

theorem streamMode_ofb (sbox : Sbox) (enc : Bool) : StreamMode enc (ofbKeystream sbox) (ofb sbox) where
  length_eq key iv x := by rw [ofb_eq, stream_length (encryptBlock_length sbox key)]
  block_eq key iv x j := by
    have hreg : streamReg (encryptBlock sbox key) ofbNext iv x j = (encryptBlock sbox key)^[j] iv := by
      induction j with
      | zero => rfl
      | succ j ih => rw [Function.iterate_succ_apply', ← ih]; rfl
    rw [ofb_eq, block_stream (encryptBlock_length sbox key), hreg, ofbKeystream, Function.iterate_succ_apply']

end Sys2Proof.Machine

open Sys2Proof Sys2Proof.Machine

/-- Settles O32: block by block, `D_K` undoes `E_K`. -/
theorem gostEcbRoundTrip : Obligations.GostEcbRoundTrip := fun sbox key x hx =>
  mapBlocks_mapBlocks (encryptBlock_length sbox key) (fun _ hb => decryptBlock_encryptBlock sbox key hb) _ x (by omega)

/-- Settles O33: both directions feed back the ciphertext block. -/
theorem gostCfbRoundTrip : Obligations.GostCfbRoundTrip := by
  intro sbox key iv x
  refine ⟨?_, (streamMode_cfb sbox true).length_eq key iv x⟩
  rw [cfb_eq, cfb_eq]
  exact stream_stream (encryptBlock_length sbox key) (fun _ _ => rfl) iv x

/-- Settles O34: both directions feed back the keystream block. -/
theorem gostOfbRoundTrip : Obligations.GostOfbRoundTrip := by
  intro sbox key iv x
  refine ⟨?_, (streamMode_ofb sbox true).length_eq key iv x⟩
  rw [ofb_eq, ofb_eq]
  exact stream_stream (encryptBlock_length sbox key) (fun _ _ => rfl) iv x
end

section
/-! The GOST commands follow their rules (R258 to R268). -/

namespace Sys2Proof.Machine

/-! ### The last line of a command -/

theorem rejects_of_short_output {i : Instr} {s : State} {r : List Byte} (h : outcome i s = result s r)
    (hlt : length s .out < r.length) : Rejects i s 0x03 :=
  rejects_of (e := .outputTooSmall) (by rw [h, result_eq, if_neg (by omega)])

theorem commits_of_fitting_output {i : Instr} {s : State} {r : List Byte} (h : outcome i s = result s r)
    (hfit : r.length ≤ length s .out) : Commits i s r none :=
  commits_of (by rw [h, result_eq, if_pos hfit]) hfit

/-! ### GOST_ECB_ENC and GOST_ECB_DEC -/

section
variable {i : Instr} {f : List Byte → List Byte → List Byte} {s : State}
variable (hpairs : usedPairs i = [.a, .b, .out]) (hi : outcome i s = ecbOutcome f s)
include hpairs hi

/-- R259, check by check. -/
theorem outcome_ecb : outcome i s =
      if Ranged i s then
        if length s .b = 32 then
          if length s .a % 8 = 0 then
            result s (mapBlocks (f (operand s .b)) 8 (length s .a / 8) (operand s .a))
          else .error .formatError
        else .error .keyLengthError
      else .error .rangeError := by
  simp [hi, ecbOutcome, chk_eq, keyCheck_eq, Ranged, hpairs, ite_and]

/-- GOST_ECB_ENC and GOST_ECB_DEC, by the function on blocks (R259, R260). -/
theorem ecb_rule (hf : ∀ key b, (f key b).length = 8) :
    (¬Ranged i s → Rejects i s 0x02) ∧
    (Ranged i s → length s .b ≠ 32 → Rejects i s 0x11) ∧
    (Ranged i s → length s .b = 32 → length s .a % 8 ≠ 0 → Rejects i s 0x10) ∧
    (Ranged i s → length s .b = 32 → length s .a % 8 = 0 → length s .out < length s .a → Rejects i s 0x03) ∧
    (Ranged i s → length s .b = 32 → length s .a % 8 = 0 → length s .a ≤ length s .out →
      ∃ r : List Byte, r.length = length s .a ∧
        (∀ j < length s .a / 8, block r j = f (operand s .b) (block (operand s .a) j)) ∧ Commits i s r none) := by
  have hout := outcome_ecb hpairs hi
  have hlen (hblocks : length s .a % 8 = 0) :
      (mapBlocks (f (operand s .b)) 8 (length s .a / 8) (operand s .a)).length = length s .a := by
    rw [mapBlocks_length _ 8 (fun b _ => hf _ b) _ _ (by rw [operand_length]; omega)]
    omega
  refine ⟨rejects_of_not_ranged, fun hr hkey => ?_, fun hr hkey hblocks => ?_, fun hr hkey hblocks hlt => ?_,
    fun hr hkey hblocks hfit => ⟨_, hlen hblocks, fun j hj => block_mapBlocks (hf _) hj _, ?_⟩⟩
  · exact rejects_of (e := .keyLengthError) (by rw [hout, if_pos hr, if_neg hkey])
  · exact rejects_of (e := .formatError) (by rw [hout, if_pos hr, if_pos hkey, if_neg hblocks])
  · exact rejects_of_short_output (by rw [hout, if_pos hr, if_pos hkey, if_pos hblocks]) (by rwa [hlen hblocks])
  · exact commits_of_fitting_output (by rw [hout, if_pos hr, if_pos hkey, if_pos hblocks]) (by rwa [hlen hblocks])
end

/-! ### The stream encrypt commands -/

theorem encryptIv_length (s : State) (ivgen : Bool) : (encryptIv s ivgen).length = 8 := by
  cases ivgen <;> simp [encryptIv]

/-- With IVGEN = 0 the IV is the whole IV operand, which has 8 bytes (R261). -/
theorem encryptIv_eq_operand {s : State} {ivgen : Bool} (hgen : ivgen = false) (hm : length s .m = 8) :
    encryptIv s ivgen = operand s .m := by
  rw [encryptIv, hgen, operand, hm]; rfl

/-- The ciphertext of a stream encrypt command. -/
def streamText (mode : List Byte → List Byte → List Byte → List Byte) (ivgen : Bool) (s : State) : List Byte :=
  mode (operand s .b) (encryptIv s ivgen) (operand s .a)

/-- Its result string: the envelope puts the IV in front (R268). -/
def streamEncResult (mode : List Byte → List Byte → List Byte → List Byte) (env ivgen : Bool) (s : State) : List Byte :=
  if env then encryptIv s ivgen ++ streamText mode ivgen s else streamText mode ivgen s

theorem streamEncResult_length {mode : List Byte → List Byte → List Byte → List Byte}
    (hlen : ∀ key iv x, (mode key iv x).length = x.length) (env ivgen : Bool) (s : State) :
    (streamEncResult mode env ivgen s).length = length s .a + (if env then 8 else 0) := by
  cases env <;> simp [streamEncResult, streamText, hlen, encryptIv_length, Nat.add_comm]

section
variable {i : Instr} {mode : List Byte → List Byte → List Byte → List Byte} {env ivgen : Bool} {s : State}
variable (hpairs : usedPairs i = [.a, .b, .m, .out]) (hi : outcome i s = streamEncOutcome mode env ivgen s)
include hpairs hi

/-- R264, check by check. -/
theorem outcome_streamEnc : outcome i s =
      if Ranged i s then
        if length s .b = 32 then
          if length s .m = 8 then
            if (streamEncResult mode env ivgen s).length ≤ length s .out then
              .ok ⟨streamEncResult mode env ivgen s, if ivgen then some (encryptIv s ivgen) else none⟩
            else .error .outputTooSmall
          else .error .ivLengthError
        else .error .keyLengthError
      else .error .rangeError := by
  simp only [hi, streamEncOutcome, chk_eq, keyCheck_eq, ivCheck_eq, fit_eq, require_bind, Ranged, hpairs, List.mem_cons,
    List.not_mem_nil, or_false, forall_eq_or_imp, forall_eq, ite_and]
  rfl

/-- GOST_CFB_ENC and GOST_OFB_ENC, by their keystream (R264, R266). -/
theorem streamEnc_rule {keystream : List Byte → List Byte → List Byte → Nat → List Byte}
    (hmode : StreamMode true keystream mode) :
    (¬Ranged i s → Rejects i s 0x02) ∧
    (Ranged i s → length s .b ≠ 32 → Rejects i s 0x11) ∧
    (Ranged i s → length s .b = 32 → length s .m ≠ 8 → Rejects i s 0x12) ∧
    (Ranged i s → length s .b = 32 → length s .m = 8 →
      length s .out < length s .a + (if env then 8 else 0) → Rejects i s 0x03) ∧
    (Ranged i s → length s .b = 32 → length s .m = 8 → length s .a + (if env then 8 else 0) ≤ length s .out →
      ∃ iv c : List Byte, iv.length = 8 ∧ (ivgen = false → iv = operand s .m) ∧ c.length = length s .a ∧
        (∀ j < (length s .a + 7) / 8,
          block c j = xorBytes (block (operand s .a) j) (keystream (operand s .b) iv c j)) ∧
        Commits i s (if env then iv ++ c else c) (if ivgen then some iv else none)) := by
  have hout := outcome_streamEnc hpairs hi
  rw [streamEncResult_length hmode.length_eq] at hout
  refine ⟨rejects_of_not_ranged, fun hr hkey => ?_, fun hr hkey hiv => ?_, fun hr hkey hiv hlt => ?_,
    fun hr hkey hiv hfit => ⟨encryptIv s ivgen, streamText mode ivgen s, encryptIv_length s ivgen,
      fun hgen => encryptIv_eq_operand hgen hiv, ?_, fun j _ => hmode.block_eq _ _ _ j, ?_⟩⟩
  · exact rejects_of (e := .keyLengthError) (by rw [hout, if_pos hr, if_neg hkey])
  · exact rejects_of (e := .ivLengthError) (by rw [hout, if_pos hr, if_pos hkey, if_neg hiv])
  · exact rejects_of (e := .outputTooSmall)
      (by rw [hout, if_pos hr, if_pos hkey, if_pos hiv, if_neg (Nat.not_le.2 hlt)])
  · rw [streamText, hmode.length_eq, operand_length]
  · exact commits_of (r := streamEncResult mode env ivgen s)
      (by rw [hout, if_pos hr, if_pos hkey, if_pos hiv, if_pos hfit])
      (by rwa [streamEncResult_length hmode.length_eq])
end

/-! ### The stream decrypt commands -/

theorem read_take (m : Memory) (event slot o : Nat) {k n : Nat} (h : k ≤ n) :
    (m.read event slot o n).take k = m.read event slot o k := by
  rw [Memory.read, ← List.map_take, List.take_range, Nat.min_eq_left h, Memory.read]

theorem read_drop (m : Memory) (event slot o k n : Nat) :
    (m.read event slot o n).drop k = m.read event slot (o + k) (n - k) := by
  refine List.ext_getElem? fun i => ?_
  rw [List.getElem?_drop, read_getElem?, read_getElem?, Nat.add_assoc]
  exact if_congr (by omega) rfl rfl

/-- The IV of a stream decrypt command (R261, R265). -/
def decryptIv (env : Bool) (s : State) : List Byte :=
  if env then readFor s .a (offset s .a) 8 else readFor s .m (offset s .m) 8

/-- The ciphertext of a stream decrypt command (R265, R268). -/
def decryptText (env : Bool) (s : State) : List Byte :=
  if env then readFor s .a (offset s .a + 8) (length s .a - 8) else operand s .a

/-- The IV is there: in the envelope, or as an IV operand of 8 bytes (R265). -/
abbrev IvPresent (env : Bool) (s : State) : Prop := if env then 8 ≤ length s .a else length s .m = 8

theorem decryptIv_eq {env : Bool} {s : State} (h : IvPresent env s) :
    decryptIv env s = if env then (operand s .a).take 8 else operand s .m := by
  cases env with
  | true => exact (read_take _ _ _ _ h).symm
  | false => rw [decryptIv, operand, operand, show length s .m = 8 from h]; rfl

theorem decryptText_eq (env : Bool) (s : State) :
    decryptText env s = if env then (operand s .a).drop 8 else operand s .a := by
  cases env with
  | true => exact (read_drop _ _ _ _ 8 _).symm
  | false => rfl

section
variable {i : Instr} {mode : List Byte → List Byte → List Byte → List Byte} {env : Bool} {s : State}
variable (hpairs : usedPairs i = if env then [.a, .b, .out] else [.a, .b, .m, .out])
variable (hi : outcome i s = streamDecOutcome mode env s)
include hpairs hi

/-- R265, check by check. -/
theorem outcome_streamDec : outcome i s =
      if Ranged i s then
        if length s .b = 32 then
          if IvPresent env s then result s (mode (operand s .b) (decryptIv env s) (decryptText env s))
          else .error (if env then .formatError else .ivLengthError)
        else .error .keyLengthError
      else .error .rangeError := by
  cases env <;>
    simp [hi, streamDecOutcome, decryptIv, decryptText, IvPresent, chk_eq, keyCheck_eq, ivCheck_eq, Ranged, hpairs,
      ite_and]

/-- GOST_CFB_DEC and GOST_OFB_DEC, by their keystream (R265, R267). -/
theorem streamDec_rule {keystream : List Byte → List Byte → List Byte → Nat → List Byte}
    (hmode : StreamMode false keystream mode) :
    (¬Ranged i s → Rejects i s 0x02) ∧
    (Ranged i s → length s .b ≠ 32 → Rejects i s 0x11) ∧
    (Ranged i s → length s .b = 32 → env = true → length s .a < 8 → Rejects i s 0x10) ∧
    (Ranged i s → length s .b = 32 → env = false → length s .m ≠ 8 → Rejects i s 0x12) ∧
    (Ranged i s → length s .b = 32 → (if env then 8 ≤ length s .a else length s .m = 8) →
      ∀ iv c : List Byte, iv = (if env then (operand s .a).take 8 else operand s .m) →
        c = (if env then (operand s .a).drop 8 else operand s .a) →
        (length s .out < c.length → Rejects i s 0x03) ∧
        (c.length ≤ length s .out → ∃ p : List Byte, p.length = c.length ∧
          (∀ j < (c.length + 7) / 8, block p j = xorBytes (block c j) (keystream (operand s .b) iv c j)) ∧
          Commits i s p none)) := by
  have hout := outcome_streamDec hpairs hi
  have hmissing (hr : Ranged i s) (hkey : length s .b = 32) (hiv : ¬IvPresent env s) :
      outcome i s = .error (if env then .formatError else .ivLengthError) := by
    rw [hout, if_pos hr, if_pos hkey, if_neg hiv]
  refine ⟨rejects_of_not_ranged, fun hr hkey => ?_, fun hr hkey henv hshort => ?_, fun hr hkey henv hiv => ?_,
    fun hr hkey hpresent iv c hiv hc => ?_⟩
  · exact rejects_of (e := .keyLengthError) (by rw [hout, if_pos hr, if_neg hkey])
  · subst henv
    exact rejects_of (e := .formatError) (hmissing hr hkey (Nat.not_le.2 hshort))
  · subst henv
    exact rejects_of (e := .ivLengthError) (hmissing hr hkey hiv)
  · have hresult : outcome i s = result s (mode (operand s .b) iv c) := by
      rw [hout, if_pos hr, if_pos hkey, if_pos hpresent, decryptIv_eq hpresent, decryptText_eq, hiv, hc]
    have hlen := hmode.length_eq (operand s .b) iv c
    exact ⟨fun hlt => rejects_of_short_output hresult (by rwa [hlen]),
      fun hfit => ⟨_, hlen, fun j _ => hmode.block_eq _ _ _ j, commits_of_fitting_output hresult (by rwa [hlen])⟩⟩
end

end Sys2Proof.Machine

open Sys2Proof Sys2Proof.Machine

/-- Settles O19: `ecb_rule` with `E_K`. -/
theorem gostEcbEncFollowsItsRule : Obligations.GostEcbEncFollowsItsRule :=
  ⟨decode_encode .gostEcbEnc, fun s => ecb_rule rfl rfl (encryptBlock_length s.cfg.sbox)⟩

/-- Settles O20: `ecb_rule` with `D_K`. -/
theorem gostEcbDecFollowsItsRule : Obligations.GostEcbDecFollowsItsRule :=
  ⟨decode_encode .gostEcbDec, fun s => ecb_rule rfl rfl (decryptBlock_length s.cfg.sbox)⟩

/-- Settles O21: `streamEnc_rule` with the keystream of cipher feedback. -/
theorem gostCfbEncFollowsItsRule : Obligations.GostCfbEncFollowsItsRule :=
  ⟨⟨decode_encode (.gostCfbEnc false false), decode_encode (.gostCfbEnc true false),
    decode_encode (.gostCfbEnc false true), decode_encode (.gostCfbEnc true true)⟩,
    fun _ _ s => streamEnc_rule rfl rfl (streamMode_cfb s.cfg.sbox true)⟩

/-- Settles O22: `streamEnc_rule` with the keystream of output feedback. -/
theorem gostOfbEncFollowsItsRule : Obligations.GostOfbEncFollowsItsRule :=
  ⟨⟨decode_encode (.gostOfbEnc false false), decode_encode (.gostOfbEnc true false),
    decode_encode (.gostOfbEnc false true), decode_encode (.gostOfbEnc true true)⟩,
    fun _ _ s => streamEnc_rule rfl rfl (streamMode_ofb s.cfg.sbox true)⟩

/-- Settles O23: `streamDec_rule` with the keystream of cipher feedback. -/
theorem gostCfbDecFollowsItsRule : Obligations.GostCfbDecFollowsItsRule :=
  ⟨⟨decode_encode (.gostCfbDec false), decode_encode (.gostCfbDec true)⟩,
    fun _ s => streamDec_rule rfl rfl (streamMode_cfb s.cfg.sbox false)⟩

/-- Settles O24: `streamDec_rule` with the keystream of output feedback. -/
theorem gostOfbDecFollowsItsRule : Obligations.GostOfbDecFollowsItsRule :=
  ⟨⟨decode_encode (.gostOfbDec false), decode_encode (.gostOfbDec true)⟩,
    fun _ s => streamDec_rule rfl rfl (streamMode_ofb s.cfg.sbox false)⟩
end

section
/-! The block permutation: transposition, padding and the commands PERM_ENC and PERM_DEC (R300 to R307). -/

namespace Sys2Proof.Machine

/-! ### The permutation of a valid key (R300, R301) -/

theorem KeyValid.length_pos {kk : List Byte} (hkey : KeyValid kk) : 0 < kk.length := by
  obtain ⟨htwo, -⟩ := hkey
  omega

theorem KeyValid.length_le {kk : List Byte} (hkey : KeyValid kk) : kk.length ≤ 10 := by
  obtain ⟨-, hten, -⟩ := hkey
  exact hten

theorem permIndex_lt {kk : List Byte} (hkey : KeyValid kk) {i : Nat} (hi : i < kk.length) :
    permIndex kk i < kk.length := by
  obtain ⟨htwo, -, hdigit, -⟩ := hkey
  obtain ⟨-, hle⟩ := hdigit kk[i] (List.getElem_mem hi)
  rw [permIndex, List.getD_eq_getElem _ _ hi]
  omega

theorem permIndex_inj {kk : List Byte} (hkey : KeyValid kk) {i j : Nat} (hi : i < kk.length) (hj : j < kk.length)
    (h : permIndex kk i = permIndex kk j) : i = j := by
  obtain ⟨-, -, hdigit, hnodup⟩ := hkey
  obtain ⟨hgei, -⟩ := hdigit kk[i] (List.getElem_mem hi)
  obtain ⟨hgej, -⟩ := hdigit kk[j] (List.getElem_mem hj)
  rw [permIndex, permIndex, List.getD_eq_getElem _ _ hi, List.getD_eq_getElem _ _ hj] at h
  have hbyte : kk[i] = kk[j] := BitVec.eq_of_toNat_eq (by omega)
  exact (hnodup.getElem_inj_iff).1 hbyte

/-! ### One block (R303) -/

theorem foldl_set_length (f : Nat → Nat) (v : Nat → Byte) (l : List Nat) (r : List Byte) :
    (l.foldl (fun r i => r.set (f i) (v i)) r).length = r.length := by
  induction l generalizing r with
  | nil => rfl
  | cons i l ih => rw [List.foldl_cons, ih, List.length_set]

/-- Stores at distinct places inside a string all stand at the end. -/
theorem getElem?_foldl_set {f : Nat → Nat} (v : Nat → Byte) {r : List Byte} {n : Nat}
    (hinj : ∀ i < n, ∀ j < n, f i = f j → i = j) (hlt : ∀ i < n, f i < r.length) {i : Nat} (hi : i < n) :
    ((List.range n).foldl (fun r i => r.set (f i) (v i)) r)[f i]? = some (v i) := by
  induction n with
  | zero => exact absurd hi (Nat.not_lt_zero i)
  | succ n ih =>
    rw [List.range_succ, List.foldl_append, List.foldl_cons, List.foldl_nil]
    obtain hlast | rfl := Nat.lt_succ_iff_lt_or_eq.1 hi
    · have hne : f n ≠ f i := fun h => by have := hinj n n.lt_succ_self i hi h; omega
      rw [List.getElem?_set_ne hne]
      exact ih (fun i hi j hj => hinj i (by omega) j (by omega)) (fun i hi => hlt i (by omega)) hlast
    · exact List.getElem?_set_self (by rw [foldl_set_length]; exact hlt i hi)

@[simp] theorem permuteBlock_length (kk b : List Byte) : (permuteBlock kk b).length = kk.length := by
  rw [permuteBlock, foldl_set_length, List.length_replicate]

@[simp] theorem unpermuteBlock_length (kk b : List Byte) : (unpermuteBlock kk b).length = kk.length := by
  rw [unpermuteBlock, List.length_map, List.length_range]

theorem permuteBlock_getElem? {kk b : List Byte} (hkey : KeyValid kk) (hb : b.length = kk.length) {i : Nat}
    (hi : i < kk.length) : (permuteBlock kk b)[permIndex kk i]? = b[i]? := by
  rw [permuteBlock, getElem?_foldl_set _ (fun i hi j hj => permIndex_inj hkey hi hj)
    (fun i hi => by rw [List.length_replicate]; exact permIndex_lt hkey hi) hi,
    List.getD_eq_getElem _ _ (hb ▸ hi), List.getElem?_eq_getElem (hb ▸ hi)]

theorem unpermuteBlock_getElem? {kk b : List Byte} (hkey : KeyValid kk) (hb : b.length = kk.length) {i : Nat}
    (hi : i < kk.length) : (unpermuteBlock kk b)[i]? = b[permIndex kk i]? := by
  have hpi : permIndex kk i < b.length := hb ▸ permIndex_lt hkey hi
  rw [unpermuteBlock, List.getElem?_map, List.getElem?_range hi, Option.map_some, List.getD_eq_getElem _ _ hpi,
    List.getElem?_eq_getElem hpi]

/-! ### A string of whole blocks (R304, R306) -/

/-- Byte `i` of block `k` of a block-wise map is byte `i` of the image of block `k`. -/
theorem mapBlocks_getElem? {f : List Byte → List Byte} {N : Nat} (hf : ∀ b, (f b).length = N) {n k i : Nat}
    (hk : k < n) (hi : i < N) (x : List Byte) :
    (mapBlocks f N n x)[k * N + i]? = (f ((x.drop (k * N)).take N))[i]? := by
  induction n generalizing k x with
  | zero => exact absurd hk (Nat.not_lt_zero k)
  | succ n ih =>
    rw [mapBlocks]
    cases k with
    | zero => rw [Nat.zero_mul, Nat.zero_add, List.drop_zero, List.getElem?_append_left (by rwa [hf])]
    | succ k =>
      have hplace : (k + 1) * N + i - N = k * N + i := by rw [Nat.succ_mul]; omega
      rw [List.getElem?_append_right (by rw [hf, Nat.succ_mul]; omega), hf, hplace, ih (Nat.lt_of_succ_lt_succ hk),
        List.drop_drop, Nat.succ_mul, Nat.add_comm N]

section
variable {N k i : Nat} {x : List Byte} (hi : i < N) (hx : k * N + i < x.length) (hdvd : N ∣ x.length)
include hi hx hdvd

/-- In a string of whole blocks, the block of a byte is one of them and is whole. -/
theorem block_lt_of_dvd : k < x.length / N := by
  rw [Nat.lt_div_iff_mul_lt_of_dvd (by omega) hdvd]; omega

theorem take_drop_length_of_dvd : ((x.drop (k * N)).take N).length = N := by
  have hle : (k + 1) * N ≤ x.length :=
    (Nat.mul_le_mul_right N (block_lt_of_dvd hi hx hdvd)).trans (Nat.div_mul_le_self _ _)
  rw [Nat.succ_mul] at hle
  rw [List.length_take, List.length_drop]
  omega
end

theorem take_drop_getElem? {N j : Nat} (hj : j < N) (x : List Byte) (k : Nat) :
    ((x.drop (k * N)).take N)[j]? = x[k * N + j]? := by
  rw [List.getElem?_take_of_lt hj, List.getElem?_drop]

theorem mapBlocks_length_of_dvd {f : List Byte → List Byte} {N : Nat} (hf : ∀ b, (f b).length = N) {x : List Byte}
    (hdvd : N ∣ x.length) : (mapBlocks f N (x.length / N) x).length = x.length := by
  rw [mapBlocks_length f N (fun b _ => hf b) _ _ (Nat.div_mul_le_self _ _), Nat.div_mul_cancel hdvd]

theorem permInvert_length {kk y : List Byte} (hdvd : kk.length ∣ y.length) : (permInvert kk y).length = y.length :=
  mapBlocks_length_of_dvd (unpermuteBlock_length kk) hdvd

theorem permInvert_getElem? {kk y : List Byte} (hkey : KeyValid kk) (hdvd : kk.length ∣ y.length) {k i : Nat}
    (hi : i < kk.length) (hy : k * kk.length + i < y.length) :
    (permInvert kk y)[k * kk.length + i]? = y[k * kk.length + permIndex kk i]? := by
  rw [permInvert, mapBlocks_getElem? (unpermuteBlock_length kk) (block_lt_of_dvd hi hy hdvd) hi,
    unpermuteBlock_getElem? hkey (take_drop_length_of_dvd hi hy hdvd) hi, take_drop_getElem? (permIndex_lt hkey hi)]

/-! ### The padding (R302, R305) -/

theorem padLength_le (N L : Nat) : padLength N L ≤ N := Nat.sub_le _ _

theorem padded_length (N : Nat) (x : List Byte) : (padded N x).length = x.length + padLength N x.length := by
  rw [padded, List.length_append, List.length_replicate]

/-- A byte holds the padding count, for a valid key has at most 10 bytes (R300, R302). -/
theorem toNat_padByte {N : Nat} (hsmall : N ≤ 10) (L : Nat) :
    (BitVec.ofNat 8 (padLength N L)).toNat = padLength N L := by
  have hle := padLength_le N L
  rw [BitVec.toNat_ofNat]
  exact Nat.mod_eq_of_lt (by omega)

section
variable {N : Nat} (hN : 0 < N)
include hN

theorem padLength_pos (L : Nat) : 0 < padLength N L := Nat.sub_pos_of_lt (Nat.mod_lt L hN)

theorem dvd_padded_length (x : List Byte) : N ∣ (padded N x).length := by
  refine ⟨x.length / N + 1, ?_⟩
  have hmod := Nat.mod_lt x.length hN
  have hdiv := Nat.div_add_mod x.length N
  rw [padded_length, padLength, Nat.mul_succ]
  omega

/-- The last byte of a padded string counts its padding. -/
theorem lastByte_padded (hsmall : N ≤ 10) (x : List Byte) : lastByte (padded N x) = padLength N x.length := by
  obtain ⟨m, hm⟩ := Nat.exists_eq_succ_of_ne_zero (padLength_pos hN x.length).ne'
  have hbyte := toNat_padByte hsmall x.length
  rw [hm] at hbyte
  rw [lastByte, padded, hm, List.replicate_succ', ← List.append_assoc, List.getLastD_concat, hbyte]

theorem paddingValid_padded (hsmall : N ≤ 10) (x : List Byte) : PaddingValid (padded N x) N := by
  have hdrop : (padded N x).drop ((padded N x).length - padLength N x.length) =
      List.replicate (padLength N x.length) (BitVec.ofNat 8 (padLength N x.length)) := by
    rw [padded_length, Nat.add_sub_cancel, padded, List.drop_left]
  rw [PaddingValid, lastByte_padded hN hsmall, hdrop]
  refine ⟨padLength_pos hN _, padLength_le _ _, fun b hb => ?_⟩
  rw [List.eq_of_mem_replicate hb, toNat_padByte hsmall]

theorem take_padded (hsmall : N ≤ 10) (x : List Byte) :
    (padded N x).take ((padded N x).length - lastByte (padded N x)) = x := by
  rw [lastByte_padded hN hsmall, padded_length, Nat.add_sub_cancel, padded, List.take_left]
end

/-! ### PERM_ENC's string and its inverse (R304, R307) -/

section
variable {kk : List Byte} (hkey : KeyValid kk) (x : List Byte)
include hkey

theorem permEncrypt_length : (permEncrypt kk x).length = (padded kk.length x).length :=
  mapBlocks_length_of_dvd (permuteBlock_length kk) (dvd_padded_length hkey.length_pos x)

theorem permEncrypt_getElem? {k i : Nat} (hi : i < kk.length) (hx : k * kk.length + i < (padded kk.length x).length) :
    (permEncrypt kk x)[k * kk.length + permIndex kk i]? = (padded kk.length x)[k * kk.length + i]? := by
  have hdvd := dvd_padded_length hkey.length_pos x
  rw [permEncrypt, mapBlocks_getElem? (permuteBlock_length kk) (block_lt_of_dvd hi hx hdvd) (permIndex_lt hkey hi),
    permuteBlock_getElem? hkey (take_drop_length_of_dvd hi hx hdvd) hi, take_drop_getElem? hi]

/-- Byte `j` goes to its place by R304 and is fetched from there by R306, with `j = kN + i`. -/
theorem permInvert_permEncrypt : permInvert kk (permEncrypt kk x) = padded kk.length x := by
  have hlen := permEncrypt_length hkey x
  have hdvd : kk.length ∣ (permEncrypt kk x).length := hlen ▸ dvd_padded_length hkey.length_pos x
  refine List.ext_getElem?' fun j hj => ?_
  rw [permInvert_length hdvd, hlen, max_self] at hj
  have hi : j % kk.length < kk.length := Nat.mod_lt j hkey.length_pos
  rw [← Nat.div_add_mod' j kk.length] at hj ⊢
  rw [permInvert_getElem? hkey hdvd hi (hlen ▸ hj), permEncrypt_getElem? hkey x hi hj]
end

/-! ### The commands, check by check -/

/-- R304, check by check. -/
theorem outcome_permEnc (s : State) : outcome .permEnc s =
    if Ranged .permEnc s then
      if KeyValid (operand s .b) then result s (permEncrypt (operand s .b) (operand s .a))
      else .error .invalidKeyError
    else .error .rangeError := by
  simp [outcome, permEncOutcome, chk_eq, Ranged, usedPairs, ite_and]

/-- R306, check by check. -/
theorem outcome_permDec (s : State) : outcome .permDec s =
    if Ranged .permDec s then
      if KeyValid (operand s .b) then
        if length s .a ≠ 0 ∧ length s .a % length s .b = 0 then
          if PaddingValid (permInvert (operand s .b) (operand s .a)) (length s .b) then
            result s ((permInvert (operand s .b) (operand s .a)).take
              (length s .a - lastByte (permInvert (operand s .b) (operand s .a))))
          else .error .decryptionError
        else .error .decryptionError
      else .error .invalidKeyError
    else .error .rangeError := by
  simp [outcome, permDecOutcome, chk_eq, Ranged, usedPairs, ite_and]

end Sys2Proof.Machine

open Sys2Proof Sys2Proof.Machine

/-- Settles O25: the checks in R304's order (`outcome_permEnc`), and the transposition byte by byte
(`permEncrypt_getElem?`). -/
theorem permEncFollowsItsRule : Obligations.PermEncFollowsItsRule := by
  refine ⟨decode_encode .permEnc, fun s => ⟨rejects_of_not_ranged, fun hr hkey => ?_, ?_⟩⟩
  · exact rejects_of (e := .invalidKeyError) (by rw [outcome_permEnc, if_pos hr, if_neg hkey])
  · rintro hr hkey p rfl
    have hresult := (outcome_permEnc s).trans ((if_pos hr).trans (if_pos hkey))
    have hbyte := fun k i => permEncrypt_getElem? hkey (operand s .a) (k := k) (i := i)
    have hlen := permEncrypt_length hkey (operand s .a)
    simp only [padded_length, padLength, operand_length] at hlen hbyte
    simp only [padded, padLength, operand_length] at hbyte
    exact ⟨fun hlt => rejects_of_short_output hresult (hlen ▸ hlt),
      fun hfit => ⟨_, hlen, hbyte, commits_of_fitting_output hresult (hlen ▸ hfit)⟩⟩

/-- Settles O26: the checks in R306's order (`outcome_permDec`), and the inverse transposition byte by byte
(`permInvert_getElem?`). -/
theorem permDecFollowsItsRule : Obligations.PermDecFollowsItsRule := by
  refine ⟨decode_encode .permDec, fun s => ⟨rejects_of_not_ranged, fun hr hkey => ?_, fun hr hkey hbad => ?_,
    fun hr hkey h0 hblocks => ?_⟩⟩
  · exact rejects_of (e := .invalidKeyError) (by rw [outcome_permDec, if_pos hr, if_neg hkey])
  · exact rejects_of (e := .decryptionError)
      (by rw [outcome_permDec, if_pos hr, if_pos hkey, if_neg (by tauto)])
  · have hout := outcome_permDec s
    rw [if_pos hr, if_pos hkey, if_pos ⟨h0, hblocks⟩] at hout
    have hdvd : (operand s .b).length ∣ (operand s .a).length := by
      simpa only [operand_length] using Nat.dvd_of_mod_eq_zero hblocks
    have hbyte := fun k i => permInvert_getElem? hkey hdvd (k := k) (i := i)
    have hlen := permInvert_length hdvd
    simp only [operand_length] at hbyte hlen
    have htake (n : Nat) : ((permInvert (operand s .b) (operand s .a)).take (length s .a - n)).length =
        length s .a - n := by rw [List.length_take, hlen]; omega
    refine ⟨_, hlen, hbyte, fun hpad => ?_, fun hpad hlt => ?_, fun hpad hfit => ?_⟩
    · exact rejects_of (e := .decryptionError) (by rw [hout, if_neg hpad])
    · exact rejects_of_short_output (hout.trans (if_pos hpad)) (by rwa [htake])
    · exact commits_of_fitting_output (hout.trans (if_pos hpad)) (by rwa [htake])

/-- Settles O35: the inverse transposition gives back the padded data (`permInvert_permEncrypt`), whose padding is valid
and is what the last byte counts. -/
theorem permRoundTrip : Obligations.PermRoundTrip := by
  intro kk x hkey
  have hN := hkey.length_pos
  have hsmall := hkey.length_le
  rw [permInvert_permEncrypt hkey, permEncrypt_length hkey]
  refine ⟨?_, Nat.mod_eq_zero_of_dvd (dvd_padded_length hN x), paddingValid_padded hN hsmall x,
    take_padded hN hsmall x⟩
  have hpos := padLength_pos hN x.length
  rw [padded_length]
  omega
end

section
/-! NOP and RNG_FILL follow their rules (R330, R331). -/

namespace Sys2Proof.Machine

/-- R330: NOP has no check. -/
theorem outcome_nop (s : State) : outcome .nop s = .ok ⟨[], none⟩ := rfl

/-- R331, check by check: the output descriptor is the only one. -/
theorem outcome_rngFill (s : State) : outcome .rngFill s =
    if Ranged .rngFill s then .ok ⟨drawRng s.event (length s .out), none⟩ else .error .rangeError := by
  simp [outcome, rngFillOutcome, chk_eq, Ranged, usedPairs, pure_eq_ok]

end Sys2Proof.Machine

open Sys2Proof Sys2Proof.Machine

/-- Settles O12: the empty result fits every capacity. -/
theorem nopFollowsItsRule : Obligations.NopFollowsItsRule :=
  ⟨decode_encode .nop, fun s => commits_of (outcome_nop s) (Nat.zero_le _)⟩

/-- Settles O27: the drawn string has the output's length, whatever bytes are drawn (R332). -/
theorem rngFillFollowsItsRule : Obligations.RngFillFollowsItsRule := by
  refine ⟨decode_encode .rngFill, fun s => ⟨rejects_of_not_ranged, fun hr => ?_⟩⟩
  have hlen := drawRng_length s.event (length s .out)
  exact ⟨_, hlen, commits_of ((outcome_rngFill s).trans (if_pos hr)) hlen.le⟩
end

section
/-! Every command completes (R400, R402, R408). -/

namespace Sys2Proof.Machine

/-- A success reports ERR = 0 and ERRCODE = 0, an error ERR = 1 and its own code, and no error's code is 0 (R401, R408). -/
theorem complete_err_iff_errcode_ne_zero (o : CommandOutcome) (s : State) :
    (complete o s).err = true ↔ (complete o s).errcode ≠ 0 := by
  cases o with
  | ok r => simp
  | error e => simp [code_ne_zero e]

end Sys2Proof.Machine

open Sys2Proof.Machine

/-- Settles O7: exec answers with the completion of the command's outcome (`exec_eq`), and every completion ends idle and
done, reports ERR exactly with a nonzero ERRCODE, and keeps the rest. -/
theorem everyCommandCompletes : Obligations.EveryCommandCompletes := by
  intro i s
  obtain ⟨hidle, hdone⟩ := complete_idle_done (outcome i s) s
  exact ⟨complete (outcome i s) s, exec_eq i s, hidle, hdone, complete_err_iff_errcode_ne_zero (outcome i s) s,
    complete_kept (outcome i s) s⟩
end

section
/-! A command in progress ends, and the hard reset (R33, R500, R501, R520, R521). -/

namespace Sys2Proof.Machine

/-- While BUSY no host input draws a new latency: only START while idle does (R37, R520). -/
theorem HostEffect.busy_wait {s t : State} {x : Input} (h : HostEffect s x t) (hbusy : s.busy = true) :
    t.busy = false ∨ t.wait = s.wait := by
  cases h with
  | hardReset | softReset => exact .inl rfl
  | start v hsrst hstart hidle => cases hidle.symm.trans hbusy
  | startDropped | irqen | status | cmd | arg | dmem | dropped | draw | responseOnly => exact .inr rfl

/-- While BUSY each step ends the command or lets some of its latency pass (R520). -/
theorem step_busy_wait {s t : State} (h : step s = .next t) (hbusy : s.busy = true) :
    t.busy = false ∨ t.wait < s.wait := by
  obtain ⟨-, rfl⟩ | ⟨hturn, rfl⟩ := step_cases h
  · exact .inl (complete_idle_done _ s).1
  · have hlatency : s.wait ≠ 0 ∧ s.inputs ≠ [] := by simpa [engineTurn, hbusy] using hturn
    obtain ⟨hwait, hinputs⟩ := hlatency
    obtain ⟨hnone, -⟩ | ⟨x, rest, -, hhost⟩ := hostTurn_cases s
    · exact absurd hnone hinputs
    · rw [hhost]
      refine ((hostInput_effect x (takeInput rest s)).busy_wait hbusy).imp_right fun hkept => ?_
      rw [hkept, takeInput_wait]
      omega

end Sys2Proof.Machine

open Sys2Proof.Machine

/-- Settles O54, by induction on the latency still to pass: a step ends the command or leaves less of it
(`step_busy_wait`). -/
theorem everyCommandEnds : Obligations.EveryCommandEnds := by
  intro s hbusy
  induction hw : s.wait using Nat.strong_induction_on generalizing s with
  | _ w ih =>
    subst hw
    obtain ⟨u, hu⟩ := exists_step_eq_next s
    cases hub : u.busy with
    | false => exact ⟨1, by omega, u, run_succ_of_step hu 0, hub⟩
    | true =>
      have hless : u.wait < s.wait := (step_busy_wait hu hbusy).resolve_left (by simp [hub])
      obtain ⟨n, hn, t, hrun, hidle⟩ := ih u.wait hless u hub rfl
      exact ⟨n + 1, by omega, t, (run_succ_of_step hu n).trans hrun, hidle⟩

/-- Settles O38: but for the parameters, a hard reset leaves every register as the reset state has it, so each reads as
R33's table says (`resetStateReadsAsTheTable`). -/
theorem hardResetFollowsItsRule : Obligations.HardResetFollowsItsRule := by
  rintro s _ rfl
  obtain ⟨hhwid, -, -, hctrl, hstatus, herrcode, hreslen, hcmd, harg, hidle, hirq, -⟩ := resetStateReadsAsTheTable
  exact ⟨hidle, rfl, rfl, rfl, rfl, hirq, hardReset_dmem s, hardReset_cfg s, hhwid, hctrl, hstatus, herrcode, hreslen,
    hcmd, harg⟩
end
